-- ==== Sys2Proof/Word.lean ====
section
/-! DEFINITION. The word types of the block (spec/00_scope.md R10; widths from spec/10_state.md R20 and
spec/30_encoding.md R86). Every value is unsigned; bit 0 is the least significant bit. -/

namespace Sys2Proof

/-- A 16-bit word: a control-store word (R86), or the snapshot word of SNAP and SHREG (R80). -/
abbrev Word := BitVec 16

/-- A control-store address, the width of SEQ and LR (R21, R22). -/
abbrev Addr := BitVec 5

/-- `N_OUT` (spec/00_scope.md R9): the output lines, and so the bits of a schedule entry. -/
abbrev Config.nOut : Nat := 6

/-- A schedule entry: bit i is the level for OUTi (R63, R84). -/
abbrev Entry := BitVec Config.nOut

/-- A phase index (R29, R85). -/
abbrev Phase := BitVec 3

/-- The level of a line: `true` is 1, the electrical high level; `false` is 0 (R10). -/
abbrev Level := Bool

/-- A control-store word from its two fields `opc ++ arg` (R86). -/
def wordOf (opc arg : BitVec 8) : Word := opc ++ arg

end Sys2Proof
end

