-- ==== Sys2Proof/Syntax.lean ====
section
/-! DEFINITION. The names the spec uses: pins, buttons, layouts, and the nineteen micro-operations of
spec/opcode_table.json (spec/30_encoding.md R88), one constructor each. -/

namespace Sys2Proof

/-- The ten lines of the block (spec/10_state.md R34), in the order of their ids 0 to 9. -/
inductive Pin where
  | out0 | out1 | out2 | out3 | out4 | out5
  | sel | data
  | latch | clk
deriving DecidableEq, Repr

/-- The twelve physical buttons of the host controller (spec/30_encoding.md R81), in the serial order in which
R82's default table lists them. The order carries no meaning here. -/
inductive Button where
  | b | y | select | start | up | down | left | right | a | x | l | r
deriving DecidableEq, Repr

/-- The six logical buttons a layout resolves (spec/42_schedule_builder.md R126). -/
inductive Logical where
  | a | b | c | x | y | z
deriving DecidableEq, Repr

/-- The three layouts (spec/30_encoding.md R83). -/
inductive Layout where
  | bc | ab | xc
deriving DecidableEq, Repr

/-- The micro-operations (spec/30_encoding.md R88, spec/opcode_table.json), in the table's order. -/
inductive Instr where
  /-- `SETH pin`, R101 -/
  | seth (pin : Pin)
  /-- `SETL pin`, R102 -/
  | setl (pin : Pin)
  /-- `DLY us`, R103 -/
  | dly (us : BitVec 8)
  /-- `CLRC`, R104 -/
  | clrc
  /-- `SMPL`, R105 -/
  | smpl
  /-- `LOOP addr`, R106 -/
  | loop (addr : Addr)
  /-- `CAPT`, R107 -/
  | capt
  /-- `LSEL`, R120 -/
  | lsel
  /-- `SEED`, R131 -/
  | seed
  /-- `BUILD`, R132 -/
  | build
  /-- `WDSTOP`, R140 -/
  | wdstop
  /-- `PHRST`, R144 -/
  | phrst
  /-- `WAITSEL`, R143 -/
  | waitsel
  /-- `DRIVE`, R145 -/
  | drive
  /-- `WDARM`, R146 -/
  | wdarm
  /-- `PHINC`, R147 -/
  | phinc
  /-- `JMP addr`, R160 -/
  | jmp (addr : Addr)
  /-- `CALL addr`, R161 -/
  | call (addr : Addr)
  /-- `RET`, R162 -/
  | ret
deriving DecidableEq, Repr

/-- Why a word selects no operation (spec/30_encoding.md R90). -/
inductive DecodeReject where
  /-- `opc` is 0x00 or at least 0x14. -/
  | unusedOpcode
  /-- An operation without operand, with `arg` not 0. -/
  | nonzeroArg
  /-- SETH or SETL with `arg` outside 8 and 9. -/
  | reservedPin
  /-- LOOP, JMP or CALL with `arg[7:5]` not 0. -/
  | reservedTarget
deriving DecidableEq, Repr

/-- What the decoder answers: the operation a word selects, or why it selects none. -/
inductive Decoded where
  | ok (i : Instr)
  | reject (r : DecodeReject)
deriving DecidableEq, Repr

end Sys2Proof
end

