-- ==== Sys2Proof/WellFormed.lean ====
section
/-! DEFINITION. Which terms of `Instr` are operations of the block (spec/30_encoding.md R87): the operand of SETH and
SETL is one of the two host lines. The other operands are of the width the encoding gives them, so every value of
theirs is legal. -/

namespace Sys2Proof

/-- The lines SETH and SETL may drive (R87): "these are the only lines the source drives with single set-high and
set-low actions". -/
def Pin.isHostLine : Pin → Bool
  | .latch => true
  | .clk => true
  | .out0 | .out1 | .out2 | .out3 | .out4 | .out5 => false
  | .sel => false
  | .data => false

/-- The operand check of R87. -/
def Instr.wellFormed : Instr → Bool
  | .seth p => p.isHostLine
  | .setl p => p.isHostLine
  | .dly _ => true
  | .clrc => true
  | .smpl => true
  | .loop _ => true
  | .capt => true
  | .lsel => true
  | .seed => true
  | .build => true
  | .wdstop => true
  | .phrst => true
  | .waitsel => true
  | .drive => true
  | .wdarm => true
  | .phinc => true
  | .jmp _ => true
  | .call _ => true
  | .ret => true

end Sys2Proof
end

