-- ==== Sys2Proof/Decode.lean ====
section
/-! DEFINITION. The decoder of control-store words, and after it the encoder (spec/30_encoding.md R86 to R90,
spec/opcode_table.json). The decoder is total on all 65536 words and rejects by name. -/

namespace Sys2Proof

/-- `opc = word[15:8]` (R86). -/
def opcOf (w : Word) : BitVec 8 := w.extractLsb' 8 8

/-- `arg = word[7:0]` (R86). -/
def argOf (w : Word) : BitVec 8 := w.extractLsb' 0 8

/-- Operand use "none": `arg` must be 0x00 (R87). -/
def decodeNone (i : Instr) (arg : BitVec 8) : Decoded :=
  if arg = 0x00 then .ok i else .reject .nonzeroArg

/-- Operand use "pin": `arg` must be 8 (LATCH) or 9 (CLK) (R87). -/
def decodePin (f : Pin → Instr) (arg : BitVec 8) : Decoded :=
  if arg = 8 then .ok (f .latch) else if arg = 9 then .ok (f .clk) else .reject .reservedPin

/-- Operand use "us": any `arg`, unsigned (R87). -/
def decodeUs (f : BitVec 8 → Instr) (arg : BitVec 8) : Decoded := .ok (f arg)

/-- Operand use "addr": the address is `arg[4:0]`, and `arg[7:5]` must be 0 (R87). -/
def decodeAddr (f : Addr → Instr) (arg : BitVec 8) : Decoded :=
  if arg.extractLsb' 5 3 = 0 then .ok (f (arg.extractLsb' 0 5)) else .reject .reservedTarget

/-- The opcode map (R88, R89). Every word of R90 is rejected. -/
def decode (w : Word) : Decoded :=
  match (opcOf w).toNat with
  | 0x01 => decodePin .seth (argOf w)
  | 0x02 => decodePin .setl (argOf w)
  | 0x03 => decodeUs .dly (argOf w)
  | 0x04 => decodeNone .clrc (argOf w)
  | 0x05 => decodeNone .smpl (argOf w)
  | 0x06 => decodeAddr .loop (argOf w)
  | 0x07 => decodeNone .capt (argOf w)
  | 0x08 => decodeNone .lsel (argOf w)
  | 0x09 => decodeNone .seed (argOf w)
  | 0x0A => decodeNone .build (argOf w)
  | 0x0B => decodeNone .wdstop (argOf w)
  | 0x0C => decodeNone .phrst (argOf w)
  | 0x0D => decodeNone .waitsel (argOf w)
  | 0x0E => decodeNone .drive (argOf w)
  | 0x0F => decodeNone .wdarm (argOf w)
  | 0x10 => decodeNone .phinc (argOf w)
  | 0x11 => decodeAddr .jmp (argOf w)
  | 0x12 => decodeAddr .call (argOf w)
  | 0x13 => decodeNone .ret (argOf w)
  | _ => .reject .unusedOpcode

/-- The id of a line (spec/10_state.md R34). -/
def Pin.id : Pin → BitVec 8
  | .out0 => 0
  | .out1 => 1
  | .out2 => 2
  | .out3 => 3
  | .out4 => 4
  | .out5 => 5
  | .sel => 6
  | .data => 7
  | .latch => 8
  | .clk => 9

/-- The opcode of an operation (R88). -/
def Instr.opcode : Instr → BitVec 8
  | .seth _ => 0x01
  | .setl _ => 0x02
  | .dly _ => 0x03
  | .clrc => 0x04
  | .smpl => 0x05
  | .loop _ => 0x06
  | .capt => 0x07
  | .lsel => 0x08
  | .seed => 0x09
  | .build => 0x0A
  | .wdstop => 0x0B
  | .phrst => 0x0C
  | .waitsel => 0x0D
  | .drive => 0x0E
  | .wdarm => 0x0F
  | .phinc => 0x10
  | .jmp _ => 0x11
  | .call _ => 0x12
  | .ret => 0x13

/-- The operand byte of an operation (R87). -/
def Instr.argByte : Instr → BitVec 8
  | .seth p => p.id
  | .setl p => p.id
  | .dly us => us
  | .loop a => a.setWidth 8
  | .jmp a => a.setWidth 8
  | .call a => a.setWidth 8
  | .clrc | .smpl | .capt | .lsel | .seed | .build | .wdstop | .phrst | .waitsel | .drive | .wdarm
  | .phinc | .ret => 0x00

/-- The control-store word of an operation (R86, R87, R88). -/
def encode (i : Instr) : Word := wordOf i.opcode i.argByte

/-- The operation the decoder reads from the low `nbits` bits of `w`; every bit above them is 0. The block's words
are 16 bits, one control-store word each (R86). -/
def decodeTableWord (nbits w : Nat) : Option Instr :=
  match decode (BitVec.ofNat 16 (w % 2 ^ nbits)) with
  | .ok i => some i
  | .reject _ => none

end Sys2Proof
end

