-- ==== Sys2Proof/Config.lean ====
section
/-! DEFINITION. What is fixed for a machine and does not change as it runs: the named constants and the parameters
of spec/00_scope.md R9, and the values the spec leaves open. An `opaque` constant has no body: nothing in Lean can
evaluate it, so whatever is proved holds for every value of it. -/

namespace Sys2Proof

namespace Config

/-- `T_LATCH_US` (R9): the latch pulse, in microseconds. -/
def tLatchUs : BitVec 8 := 12

/-- `T_HALF_US` (R9): the clock half-period, in microseconds. -/
def tHalfUs : BitVec 8 := 6

/-- `N_BITS` (R9): the samples of one read. -/
def nBits : BitVec 5 := 16

/-- `N_PHASES` (R9): the phases of one cycle. -/
def nPhases : Nat := 8

/-- `RESET_VEC` (spec/20_memory.md R66). -/
def resetVec : Addr := 0x00

/-- `RESTART_VEC` (R66): where control goes on watchdog expiry and on first entry. -/
def restartVec : Addr := 0x03

/-- `LOOP_TOP` (R66): the WAITSEL of the phase loop. -/
def loopTop : Addr := 0x07

/-- `HREAD` (R66): the entry of the HostReader routine. -/
def hread : Addr := 0x10

/-- The last control-store address (spec/10_state.md R21). -/
def lastAddr : Addr := 0x1F

end Config

/-- `BTNPOS`: the snapshot bit of each physical button (spec/30_encoding.md R82). -/
structure BtnPos where
  b : Fin 16
  y : Fin 16
  select : Fin 16
  start : Fin 16
  up : Fin 16
  down : Fin 16
  left : Fin 16
  right : Fin 16
  a : Fin 16
  x : Fin 16
  l : Fin 16
  r : Fin 16
deriving DecidableEq, Repr

/-- `BTNPOS(b)`. -/
def BtnPos.at (p : BtnPos) : Button → Fin 16
  | .b => p.b
  | .y => p.y
  | .select => p.select
  | .start => p.start
  | .up => p.up
  | .down => p.down
  | .left => p.left
  | .right => p.right
  | .a => p.a
  | .x => p.x
  | .l => p.l
  | .r => p.r

/-- The default table of R82. It is "from general knowledge, not in source": only the numeric test vectors of
spec/95_test_vectors.md use it (log 13). No meaning and no reset value mentions it. -/
def BtnPos.superFamicom : BtnPos where
  b := 15
  y := 14
  select := 13
  start := 12
  up := 11
  down := 10
  left := 9
  right := 8
  a := 7
  x := 6
  l := 5
  r := 4

/-- The parameters of R9 that a model takes as arguments. No step changes them (spec/10_state.md R38). -/
structure Params where
  /-- `TICKS_PER_US`, at least 1. -/
  ticksPerUs : Nat
  /-- `DLY_SLACK_TICKS`: the largest number of ticks a delay may overrun (spec/40_host_reader.md R103). -/
  dlySlackTicks : Nat
  /-- `WD_TIMEOUT_US`, OPEN, greater than 0 (spec/60_exceptions.md R178). -/
  wdTimeoutUs : Nat
  /-- `SEL_ACTIVE`, OPEN (spec/43_emulation_engine.md R142). -/
  selActive : Level
  /-- `BTNPOS`, OPEN, injective. -/
  btnPos : BtnPos
deriving DecidableEq, Repr

/-- `WD_TIMEOUT_TICKS = WD_TIMEOUT_US * TICKS_PER_US` (R9). -/
def Params.wdTimeoutTicks (p : Params) : Nat := p.wdTimeoutUs * p.ticksPerUs

/-- The bounds R9 sets on the parameters. -/
structure Params.Ok (p : Params) : Prop where
  ticks_pos : 1 ≤ p.ticksPerUs
  timeout_pos : 0 < p.wdTimeoutUs
  btnPos_injective : Function.Injective p.btnPos.at

namespace Config

/-- The OPEN watchdog timeout of R9 less one: any natural number, so that the timeout is any number above 0. -/
opaque wdTimeoutUsLessOne : Nat

/-- The OPEN `SEL_ACTIVE` of R9. -/
opaque selActive : Level

/-- The OPEN `BTNPOS` of R9, as a permutation of the sixteen bit numbers of which the first twelve places are used:
every injective map from the twelve buttons to the bit numbers is one of these. -/
opaque btnOrder : Equiv.Perm (Fin 16)

/-- `OUT_RESET` (R9): the unspecified levels of the six output lines at reset. -/
opaque outReset : Entry

/-- `SEL_in` (spec/00_scope.md R7): what the console does, unconstrained. -/
opaque selIn : Nat → Level

/-- `DATA_in` (R7): what the host controller does, unconstrained. -/
opaque dataIn : Nat → Level

/-- The delay overruns of spec/40_host_reader.md R103, by the number of the draw, before they are brought into
0..DLY_SLACK_TICKS. -/
opaque dlyDraw : Nat → Nat

/-- What BITCNT holds after SMPL at BITCNT = 31, where the sum does not fit 5 bits and the spec states no result
(log 6), by the number of the draw. -/
opaque bitcntDraw : Nat → BitVec 5

/-- The `BTNPOS` of the machine that `State.reset` starts. -/
def btnPos : BtnPos where
  b := btnOrder 0
  y := btnOrder 1
  select := btnOrder 2
  start := btnOrder 3
  up := btnOrder 4
  down := btnOrder 5
  left := btnOrder 6
  right := btnOrder 7
  a := btnOrder 8
  x := btnOrder 9
  l := btnOrder 10
  r := btnOrder 11

/-- The parameters of the machine that `State.reset` starts: R9's values for `TICKS_PER_US` (1, D3) and
`DLY_SLACK_TICKS` (0, D4), and nothing chosen for the three OPEN rows (log 3). -/
def params : Params where
  ticksPerUs := 1
  dlySlackTicks := 0
  wdTimeoutUs := wdTimeoutUsLessOne + 1
  selActive := selActive
  btnPos := btnPos

end Config

end Sys2Proof
end

