-- ==== Sys2Proof/Machine/State.lean ====
section
/-! DEFINITION. The state of the block (spec/10_state.md R20), the reasons a step refuses, and the state at reset
(spec/70_reset_and_hazards.md R200, R201). -/

namespace Sys2Proof.Machine

open Sys2Proof

/-- The OutputSchedule SCHED: eight entries of six bits (R28). -/
structure Schedule where
  e0 : Entry
  e1 : Entry
  e2 : Entry
  e3 : Entry
  e4 : Entry
  e5 : Entry
  e6 : Entry
  e7 : Entry
deriving DecidableEq, Repr

/-- What is known of an input line: the instants at which it takes a level, in rising order. Between two of them the
level is that of the earlier; before the first it is the open input function of Config (log 4). -/
abbrev Trace := List (Nat × Level)

/-- The environment: the input functions SEL_in and DATA_in of spec/00_scope.md R7. Not state of the block (R37). -/
structure Env where
  sel : Trace
  data : Trace
deriving DecidableEq, Repr

/-- The control-store words that differ from the fixed contents of spec/44_sequencer_control.md R164, by address, in
strictly rising order of address (log 1). -/
abbrev Memory := List (Nat × Word)

/-- The state of the machine. The fields up to `clk` are R20's table; `now` is the clock of spec/00_scope.md R7; the
last four are the model's own. -/
structure State where
  /-- SEQ, the sequencer address (R21). -/
  seq : Addr
  /-- LR, the link register (R22). -/
  lr : Addr
  /-- SHREG, the shift register (R25). -/
  shreg : Word
  /-- BITCNT, the samples taken in the current read (R26). -/
  bitcnt : BitVec 5
  /-- SNAP, the ButtonSnapshot in raw wire form (R23). -/
  snap : Word
  /-- LAYOUT, the layout code (R27). -/
  layout : BitVec 2
  /-- SCHED, the OutputSchedule (R28). -/
  sched : Schedule
  /-- PHASE, the PhaseIndex (R29). -/
  phase : Phase
  /-- WD_RUN: the watchdog timer counts (R30). -/
  wdRun : Bool
  /-- WD_CNT, the running count in ticks (R31). -/
  wdCnt : Nat
  /-- RESTART_REQ, the pending-restart flag (R32). -/
  restartReq : Bool
  /-- DLY_REM, the ticks still to pass of a delay in progress (R33). -/
  dlyRem : Nat
  /-- DLY_BUSY: a delay is in progress (R33). -/
  dlyBusy : Bool
  /-- OUT[5:0], the latch of the six output lines (R35). -/
  out : Entry
  /-- The latch of the host latch line (R36). -/
  latch : Level
  /-- The latch of the host clock line (R36). -/
  clk : Level
  /-- The present instant, in ticks (R7). -/
  now : Nat
  /-- The model's own: the parameters of R9; no step changes them (R38). -/
  par : Params
  /-- The model's own: the input functions (R7, R37); no step changes them. -/
  env : Env
  /-- The model's own: the number of the next draw of a free value. -/
  drawIx : Nat
  /-- The model's own: the control-store words that are not R164's; no step changes them (R38, R74). -/
  csLoad : Memory
deriving DecidableEq, Repr

/-- The block has no fault state and no synchronous exception (spec/00_scope.md R13, spec/60_exceptions.md R170):
nothing raises a fault, so the type has no constructor. Safe. -/
inductive Fault where
deriving DecidableEq, Repr

/-- Why a step has no next state: the spec's `refuse` (spec/00_scope.md R13). All are safe: the model stops where the
spec gives no meaning. -/
inductive Refusal where
  /-- Raised by an arm of `exec` whose instruction has no meaning yet. Safe. -/
  | notModelled (mnemonic : String)
  /-- Raised by `step` on a fetch from an address that holds no word (spec/30_encoding.md R91). Safe. -/
  | undefinedAddress (a : Addr)
  /-- Raised by `step` on a word that selects no operation (R90, R91). Safe. -/
  | reservedWord (w : Word) (why : DecodeReject)
  /-- Raised by SETH and SETL, as terms, on a line that is not a host line (R87, R90); no word decodes to one.
  Safe. -/
  | reservedPin (p : Pin)
  /-- Raised by SEED and BUILD on the reserved layout code 3 (spec/42_schedule_builder.md R125, U12). Safe. -/
  | reservedLayout
  /-- Raised by any operation that would compute SEQ + 1 at 0x1F (spec/10_state.md R21). Safe. -/
  | seqPastEnd
deriving DecidableEq, Repr

/-- The registers to which the spec gives no reset value (R20: "a draw at reset"). -/
structure ResetDraw where
  lr : Addr
  shreg : Word
  bitcnt : BitVec 5
  snap : Word
  layout : BitVec 2
  sched : Schedule
  out : Entry
deriving DecidableEq, Repr

/-- The state at power-on (spec/70_reset_and_hazards.md R200, R201), for any parameters, any environment and any
draw of the unspecified registers. -/
def State.powerOn (p : Params) (e : Env) (d : ResetDraw) : State where
  seq := Config.resetVec
  lr := d.lr
  shreg := d.shreg
  bitcnt := d.bitcnt
  snap := d.snap
  layout := d.layout
  sched := d.sched
  phase := 0
  wdRun := false
  wdCnt := 0
  restartReq := false
  dlyRem := 0
  dlyBusy := false
  out := d.out
  latch := false
  clk := true
  now := 0
  par := p
  env := e
  drawIx := 0
  csLoad := []

/-- The draw that `State.reset` takes: zero for the registers no run of the fixed control store reads before it
writes them (R204; log 8), and the open OUT_RESET for the output lines (R35; log 9). -/
def ResetDraw.named : ResetDraw where
  lr := 0
  shreg := 0
  bitcnt := 0
  snap := 0
  layout := 0
  sched := ⟨0, 0, 0, 0, 0, 0, 0, 0⟩
  out := Config.outReset

/-- The machine right after reset: R20's reset values, the open parameters of Config, nothing listed of the
environment (log 4), and the control store as R164 gives it. -/
def State.reset : State := State.powerOn Config.params ⟨[], []⟩ ResetDraw.named

end Sys2Proof.Machine
end

