-- ==== Sys2Proof/Machine/ControlStore.lean ====
section
/-! DEFINITION. The control store: its fixed contents (spec/44_sequencer_control.md R164) and the sparse memory of
the words that differ from them (log 1). -/

namespace Sys2Proof.Machine

open Sys2Proof

/-- The fixed contents of the control store (R164). Addresses 0x0C to 0x0F and 0x1C to 0x1F are undefined. The words
that hold a delay or a vector take it from the named constants of R9 and R66. -/
def romWord : Nat → Option Word
  | 0x00 => some (wordOf 0x12 (Config.hread.setWidth 8))
  | 0x01 => some 0x0800
  | 0x02 => some 0x0900
  | 0x03 => some 0x0B00
  | 0x04 => some 0x0C00
  | 0x05 => some (wordOf 0x12 (Config.hread.setWidth 8))
  | 0x06 => some 0x0A00
  | 0x07 => some 0x0D00
  | 0x08 => some 0x0E00
  | 0x09 => some 0x0F00
  | 0x0A => some 0x1000
  | 0x0B => some (wordOf 0x11 (Config.loopTop.setWidth 8))
  | 0x10 => some 0x0108
  | 0x11 => some (wordOf 0x03 Config.tLatchUs)
  | 0x12 => some 0x0208
  | 0x13 => some 0x0400
  | 0x14 => some 0x0209
  | 0x15 => some 0x0500
  | 0x16 => some (wordOf 0x03 Config.tHalfUs)
  | 0x17 => some 0x0109
  | 0x18 => some (wordOf 0x03 Config.tHalfUs)
  | 0x19 => some 0x0614
  | 0x1A => some 0x0700
  | 0x1B => some 0x1300
  | _ => none

/-- The listed word at an address. -/
def Memory.find : Memory → Nat → Option Word
  | [], _ => none
  | (k, w) :: rest, a => if k = a then some w else Memory.find rest a

/-- The word at an address: the listed one, else R164's, else none (undefined). -/
def Memory.read (m : Memory) (a : Nat) : Option Word :=
  match m.find a with
  | some w => some w
  | none => romWord a

/-- The list without the entry at an address. -/
def Memory.erase : Memory → Nat → Memory
  | [], _ => []
  | (k, w) :: rest, a => if k = a then Memory.erase rest a else (k, w) :: Memory.erase rest a

/-- The list with an entry put in its place among rising addresses, before the first larger address. -/
def Memory.insert : Memory → Nat → Word → Memory
  | [], a, v => [(a, v)]
  | (k, w) :: rest, a, v => if a < k then (a, v) :: (k, w) :: rest else (k, w) :: Memory.insert rest a v

/-- Put a word at an address. Writing what the unlisted address reads as removes the entry, so that equal contents
are equal lists. No operation of the block writes the control store (R74); this stands for a control store given
from outside (spec/95_test_vectors.md, K1 to K4). -/
def Memory.write (m : Memory) (a : Nat) (v : Word) : Memory :=
  if romWord a = some v then m.erase a else (m.erase a).insert a v

/-- Strictly rising addresses, all at least `lo`, none beyond the 32 words of the store (R60), no entry equal to what
the unlisted address reads as. -/
def Memory.wfFrom : Nat → Memory → Bool
  | _, [] => true
  | lo, (k, w) :: rest =>
    decide (lo ≤ k) && decide (k < 32) && !decide (romWord k = some w) && Memory.wfFrom (k + 1) rest

/-- The canonical form. -/
def Memory.wf (m : Memory) : Bool := Memory.wfFrom 0 m

/-- The word at control-store address SEQ (spec/44_sequencer_control.md R163). -/
def State.fetch (s : State) : Option Word := s.csLoad.read s.seq.toNat

/-- A state with a word placed at a control-store address. -/
def State.storeWord (s : State) (a : Addr) (w : Word) : State :=
  { s with csLoad := s.csLoad.write a.toNat w }

end Sys2Proof.Machine
end

