-- ==== Sys2Proof/Machine/Operands.lean ====
section
/-! DEFINITION. What an operation reads besides registers: the pins (spec/00_scope.md R11, spec/10_state.md R34 to
R37), the buttons of a snapshot (R24), the layout code (spec/30_encoding.md R83), the entry of a schedule that PHASE
selects (spec/20_memory.md R64), and a delay's length (spec/40_host_reader.md R103). -/

namespace Sys2Proof.Machine

open Sys2Proof

/-- The level at instant `t` of a line that rests at `base` and then takes the listed levels. -/
def levelFrom (base : Level) : Trace → Nat → Level
  | [], _ => base
  | (t0, v) :: rest, t => if t0 ≤ t then levelFrom v rest t else base

/-- `SEL_in(t)` (R7). -/
def Env.selAt (e : Env) (t : Nat) : Level := levelFrom (Config.selIn t) e.sel t

/-- `DATA_in(t)` (R7). -/
def Env.dataAt (e : Env) (t : Nat) : Level := levelFrom (Config.dataIn t) e.data t

/-- `pin[P]` (R11): the input function at `now` for an input, the level last driven for an output. -/
def State.pin (s : State) : Pin → Level
  | .out0 => s.out.getLsbD 0
  | .out1 => s.out.getLsbD 1
  | .out2 => s.out.getLsbD 2
  | .out3 => s.out.getLsbD 3
  | .out4 => s.out.getLsbD 4
  | .out5 => s.out.getLsbD 5
  | .sel => s.env.selAt s.now
  | .data => s.env.dataAt s.now
  | .latch => s.latch
  | .clk => s.clk

/-- `lvl(s, b)`: the wire level of a button in a snapshot word, 1 when released (R24). -/
def lvl (pos : BtnPos) (w : Word) (btn : Button) : Level := w.getLsbD (pos.at btn).val

/-- `pressed(s, b) = (s[BTNPOS(b)] == 0)` (R24). -/
def pressed (pos : BtnPos) (w : Word) (btn : Button) : Bool := !lvl pos w btn

/-- The layout a code stands for; code 3 is reserved (R83). -/
def layoutOfCode (c : BitVec 2) : Option Layout :=
  if c = 0 then some .bc else if c = 1 then some .ab else if c = 2 then some .xc else none

/-- The code of a layout (R83). -/
def codeOfLayout : Layout → BitVec 2
  | .bc => 0
  | .ab => 1
  | .xc => 2

/-- `SCHED[n]` (R11, R64). -/
def Schedule.entry (t : Schedule) (n : Phase) : Entry :=
  match n.toNat with
  | 0 => t.e0
  | 1 => t.e1
  | 2 => t.e2
  | 3 => t.e3
  | 4 => t.e4
  | 5 => t.e5
  | 6 => t.e6
  | _ => t.e7

/-- `draw({0, ..., DLY_SLACK_TICKS})` (R103): the overrun of the delay now loaded, a free value within its bound
(log 5). -/
def State.overrun (s : State) : Nat :=
  if s.par.dlySlackTicks = 0 then 0 else Config.dlyDraw s.drawIx % (s.par.dlySlackTicks + 1)

/-- The length in ticks of the delay now loaded, `arg * TICKS_PER_US + e` (R103). -/
def State.delayTicks (s : State) (us : BitVec 8) : Nat := us.toNat * s.par.ticksPerUs + s.overrun

end Sys2Proof.Machine
end

