-- ==== Sys2Proof/Machine/Flags.lean ====
section
/-! DEFINITION. The one-bit conditions. The block has no condition codes and no flag written as a side effect of a
data operation (spec/10_state.md R38); what it has is the armed flag WD_RUN, the pending flag RESTART_REQ, the flag
DLY_BUSY, the comparison of BITCNT with 16, and the awaited level of a phase. -/

namespace Sys2Proof.Machine

open Sys2Proof

/-- `awaited(n)` (spec/43_emulation_engine.md R141): SEL_ACTIVE when n is even, the other level when n is odd. -/
def awaited (active : Level) (n : Phase) : Level :=
  if n.toNat % 2 = 0 then active else !active

/-- SEL is at the level PHASE awaits, at the present instant (R143). -/
abbrev State.selAwaited (s : State) : Prop := s.pin .sel = awaited s.par.selActive s.phase

/-- The comparison of LOOP (spec/40_host_reader.md R106): sixteen samples are in. -/
abbrev State.samplesIn (s : State) : Prop := s.bitcnt = Config.nBits

/-- Timer `stop()`: WD_RUN and RESTART_REQ cleared, WD_CNT kept (R140). -/
def State.stopTimer (s : State) : State := { s with wdRun := false, restartReq := false }

/-- Timer `start_counting_from_zero()` (R146, spec/60_exceptions.md R187). -/
def State.startTimer (s : State) : State := { s with wdRun := true, wdCnt := 0 }

/-- The WDT rule (R176): what one tick does to WD_CNT and RESTART_REQ. WD_RUN stays as it is (R177). -/
def State.countTimer (s : State) : State :=
  if s.wdRun then
    if s.wdCnt + 1 = s.par.wdTimeoutTicks then { s with wdCnt := 0, restartReq := true }
    else { s with wdCnt := s.wdCnt + 1 }
  else s

end Sys2Proof.Machine
end

