-- ==== Sys2Proof/Machine/Ops.lean ====
section
/-! DEFINITION. The shared operations the meanings are made of: the sequencer's advance (spec/10_state.md R21), the
tick step (spec/00_scope.md R7), the watchdog interrupt's entry (spec/60_exceptions.md R180), the writes of pins,
counters and the schedule. There is no return from the interrupt: "There is no return from the interrupt and no
nesting" (R183). -/

namespace Sys2Proof.Machine

open Sys2Proof

/-- What a meaning answers. -/
abbrev Result := Host.Outcome State Fault Refusal

/-- `SEQ <- target` (R11). -/
def State.goto (s : State) (a : Addr) : State := { s with seq := a }

/-- `SEQ <- SEQ + 1`; at 0x1F the sum is refused rather than wrapped (R21; log 12). -/
def State.advance (s : State) : Result :=
  if s.seq = Config.lastAddr then .refused .seqPastEnd else .next (s.goto (s.seq + 1))

/-- A delay in progress loses one tick (R7). -/
def State.countDelay (s : State) : State :=
  if s.dlyBusy && decide (0 < s.dlyRem) then { s with dlyRem := s.dlyRem - 1 } else s

/-- The tick step (R7): `now <- now + 1`, then the WDT rule (R176), then the delay. It is the global step of a state
whose sequencer is blocked (log 7). -/
def State.tick (s : State) : State := ({ s with now := s.now + 1 }).countTimer.countDelay

/-- TAKING THE INTERRUPT (R180): the pending flag is cleared and SEQ is set to RESTART_VEC. Nothing is saved: not the
old SEQ, not PHASE, not the awaited level. It is the one asynchronous transfer of control of the block. -/
def State.takeRestart (s : State) : State := { s with restartReq := false, seq := Config.restartVec }

/-- `pin[P] <- v` on a host line (R11, R36). SETH and SETL have no other operand (R87). -/
def State.driveHostLine (s : State) (p : Pin) (v : Level) : Result :=
  match p with
  | .latch => ({ s with latch := v }).advance
  | .clk => ({ s with clk := v }).advance
  | .out0 | .out1 | .out2 | .out3 | .out4 | .out5 => .refused (.reservedPin p)
  | .sel => .refused (.reservedPin p)
  | .data => .refused (.reservedPin p)

/-- The load of a delay (spec/40_host_reader.md R103). One draw is taken. -/
def State.loadDelay (s : State) (us : BitVec 8) : State :=
  { s with dlyRem := s.delayTicks us, dlyBusy := true, drawIx := s.drawIx + 1 }

/-- `(PHASE + 1) mod 8` (R12), with `N_PHASES` for the 8. -/
def nextPhase (n : Phase) : Phase := BitVec.ofNat 3 ((n.toNat + 1) % Config.nPhases)

/-- `SHREG[14:0] ++ d` (spec/00_scope.md R12). -/
def shiftIn (w : Word) (d : Level) : Word := w.extractLsb' 0 15 ++ BitVec.ofBool d

/-- `BITCNT <- BITCNT + 1` (R105). At 31 the sum does not fit BITCNT and the spec states no result: the value is
drawn (log 6). -/
def State.countSample (s : State) : State :=
  if s.bitcnt = 31 then { s with bitcnt := Config.bitcntDraw s.drawIx, drawIx := s.drawIx + 1 }
  else { s with bitcnt := s.bitcnt + 1 }

end Sys2Proof.Machine
end

