-- ==== Sys2Proof/Machine/EmulationEngine.lean ====
section
/-! DEFINITION. The EmulationEngine operations WDSTOP, PHRST, WAITSEL, DRIVE, WDARM, PHINC
(spec/43_emulation_engine.md). -/

namespace Sys2Proof.Machine

open Sys2Proof

/-- WDSTOP (R140): `WD_RUN <- 0; RESTART_REQ <- 0; SEQ <- SEQ + 1`. -/
def execWdstop (s : State) : Result := s.stopTimer.advance

/-- PHRST (R144): `PHASE <- 0; SEQ <- SEQ + 1`. -/
def execPhrst (s : State) : Result := ({ s with phase := 0 }).advance

/-- WAITSEL (R143): a pending restart is taken first; else the awaited level lets the sequencer go on; else the
sequencer is blocked and the global step is a tick. -/
def execWaitsel (s : State) : Result :=
  if s.restartReq then .next s.takeRestart
  else if s.selAwaited then s.advance
  else .next s.tick

/-- DRIVE (R145): `OUT[5:0] <- SCHED[PHASE]`, copied without inversion (R129), then SEQ + 1. -/
def execDrive (s : State) : Result := ({ s with out := s.sched.entry s.phase }).advance

/-- WDARM (R146): with PHASE not 0 the timer counts from zero; with PHASE = 0 nothing changes but SEQ. -/
def execWdarm (s : State) : Result := (if s.phase = 0 then s else s.startTimer).advance

/-- PHINC (R147): `PHASE <- (PHASE + 1) mod 8; SEQ <- SEQ + 1`. -/
def execPhinc (s : State) : Result := ({ s with phase := nextPhase s.phase }).advance

end Sys2Proof.Machine
end

