-- ==== Sys2Proof/Machine/HostReader.lean ====
section
/-! DEFINITION. The HostReader operations SETH, SETL, DLY, CLRC, SMPL, LOOP, CAPT (spec/40_host_reader.md). -/

namespace Sys2Proof.Machine

open Sys2Proof

/-- SETH (R101): `pin[arg] <- 1; SEQ <- SEQ + 1`. -/
def execSeth (p : Pin) (s : State) : Result := s.driveHostLine p true

/-- SETL (R102): `pin[arg] <- 0; SEQ <- SEQ + 1`. -/
def execSetl (p : Pin) (s : State) : Result := s.driveHostLine p false

/-- DLY (R103): load, wait, complete. While it waits the sequencer is blocked and the global step is a tick. -/
def execDly (us : BitVec 8) (s : State) : Result :=
  if s.dlyBusy then
    if s.dlyRem = 0 then ({ s with dlyBusy := false }).advance else .next s.tick
  else .next (s.loadDelay us)

/-- CLRC (R104): `BITCNT <- 0; SEQ <- SEQ + 1`. -/
def execClrc (s : State) : Result := ({ s with bitcnt := 0 }).advance

/-- SMPL (R105): the present level of DATA is shifted in and BITCNT counts. -/
def execSmpl (s : State) : Result :=
  ({ s with shreg := shiftIn s.shreg (s.pin .data) }).countSample.advance

/-- LOOP (R106): back to `addr` until sixteen samples are in. -/
def execLoop (a : Addr) (s : State) : Result :=
  if s.samplesIn then s.advance else .next (s.goto a)

/-- CAPT (R107): `SNAP <- SHREG; SEQ <- SEQ + 1`. -/
def execCapt (s : State) : Result := ({ s with snap := s.shreg }).advance

end Sys2Proof.Machine
end

