-- ==== Sys2Proof/Machine/LayoutSelector.lean ====
section
/-! DEFINITION. The LayoutSelector operation LSEL (spec/41_layout_selector.md). -/

namespace Sys2Proof.Machine

open Sys2Proof

/-- `select(s)` (R121): AB if Left is pressed, else BC if Right is pressed, else XC. -/
def select (pos : BtnPos) (w : Word) : Layout :=
  if pressed pos w .left then .ab
  else if pressed pos w .right then .bc
  else .xc

/-- LSEL (R120): LAYOUT from the snapshot, then SEQ + 1. -/
def execLsel (s : State) : Result :=
  ({ s with layout := codeOfLayout (select s.par.btnPos s.snap) }).advance

end Sys2Proof.Machine
end

