-- ==== Sys2Proof/Machine/ScheduleBuilder.lean ====
section
/-! DEFINITION. The function `build` and the ScheduleBuilder operations SEED and BUILD
(spec/42_schedule_builder.md). -/

namespace Sys2Proof.Machine

open Sys2Proof

/-- `phys(L, x)`: the physical button a logical button reads under a layout (R126). -/
def phys : Layout → Logical → Button
  | .bc, .a => .a
  | .bc, .b => .y
  | .bc, .c => .b
  | .bc, .x => .l
  | .bc, .y => .x
  | .bc, .z => .r
  | .ab, .a => .y
  | .ab, .b => .b
  | .ab, .c => .a
  | .ab, .x => .l
  | .ab, .y => .x
  | .ab, .z => .r
  | .xc, .a => .b
  | .xc, .b => .a
  | .xc, .c => .r
  | .xc, .x => .y
  | .xc, .y => .x
  | .xc, .z => .l

/-- `ll(s, L, x) = lvl(s, phys(L, x))` (R127). -/
def ll (pos : BtnPos) (w : Word) (lay : Layout) (face : Logical) : Level := lvl pos w (phys lay face)

/-- An entry from the tuple (OUT0, OUT1, OUT2, OUT3, OUT4, OUT5): element i is bit i (spec/20_memory.md R63). -/
def entryOf (o0 o1 o2 o3 o4 o5 : Level) : Entry :=
  BitVec.ofBool o5 ++ BitVec.ofBool o4 ++ BitVec.ofBool o3 ++ BitVec.ofBool o2 ++ BitVec.ofBool o1 ++
    BitVec.ofBool o0

/-- The entry of phases 0, 2 and 4: (Up, Down, Left, Right, B, C) (R128). -/
def entryDirections (pos : BtnPos) (w : Word) (lay : Layout) : Entry :=
  entryOf (lvl pos w .up) (lvl pos w .down) (lvl pos w .left) (lvl pos w .right) (ll pos w lay .b) (ll pos w lay .c)

/-- The entry of phases 1 and 3: (Up, Down, 0, 0, A, Start) (R128). -/
def entryUpDown (pos : BtnPos) (w : Word) (lay : Layout) : Entry :=
  entryOf (lvl pos w .up) (lvl pos w .down) false false (ll pos w lay .a) (lvl pos w .start)

/-- The entry of phase 5: (0, 0, 0, 0, A, Start) (R128). The literals are wire levels (R129). -/
def entryIdentify (pos : BtnPos) (w : Word) (lay : Layout) : Entry :=
  entryOf false false false false (ll pos w lay .a) (lvl pos w .start)

/-- The entry of phase 6: (Z, Y, X, Select, B, C) (R128). -/
def entryExtra (pos : BtnPos) (w : Word) (lay : Layout) : Entry :=
  entryOf (ll pos w lay .z) (ll pos w lay .y) (ll pos w lay .x) (lvl pos w .select) (ll pos w lay .b) (ll pos w lay .c)

/-- The entry of phase 7: (1, 1, 1, 1, A, Start) (R128). -/
def entryConfirm (pos : BtnPos) (w : Word) (lay : Layout) : Entry :=
  entryOf true true true true (ll pos w lay .a) (lvl pos w .start)

/-- `build(s, L)` (R125, R128). -/
def build (pos : BtnPos) (w : Word) (lay : Layout) : Schedule where
  e0 := entryDirections pos w lay
  e1 := entryUpDown pos w lay
  e2 := entryDirections pos w lay
  e3 := entryUpDown pos w lay
  e4 := entryDirections pos w lay
  e5 := entryIdentify pos w lay
  e6 := entryExtra pos w lay
  e7 := entryConfirm pos w lay

/-- `SCHED <- build(w, LAYOUT); SEQ <- SEQ + 1`, all eight entries in one step (spec/20_memory.md R64). `build` is
not defined for the reserved layout code 3 (R125): there it refuses (U12; log 16). -/
def State.rebuild (s : State) (w : Word) : Result :=
  match layoutOfCode s.layout with
  | some lay => ({ s with sched := build s.par.btnPos w lay }).advance
  | none => .refused .reservedLayout

/-- SEED (R131): the schedule of the all-released snapshot 0xFFFF. -/
def execSeed (s : State) : Result := s.rebuild 0xFFFF

/-- BUILD (R132): the schedule of SNAP. -/
def execBuild (s : State) : Result := s.rebuild s.snap

end Sys2Proof.Machine
end

