-- ==== Sys2Proof/Machine/SequencerControl.lean ====
section
/-! DEFINITION. The sequencer control operations JMP, CALL, RET (spec/44_sequencer_control.md). -/

namespace Sys2Proof.Machine

open Sys2Proof

/-- JMP (R160): `SEQ <- arg[4:0]`. -/
def execJmp (a : Addr) (s : State) : Result := .next (s.goto a)

/-- CALL (R161): `LR <- SEQ + 1; SEQ <- arg[4:0]`. At 0x1F the sum SEQ + 1 is refused (R21; log 12). -/
def execCall (a : Addr) (s : State) : Result :=
  if s.seq = Config.lastAddr then .refused .seqPastEnd else .next (({ s with lr := s.seq + 1 }).goto a)

/-- RET (R162): `SEQ <- LR`; LR is unchanged. -/
def execRet (s : State) : Result := .next (s.goto s.lr)

end Sys2Proof.Machine
end

