-- ==== Sys2Proof/Machine/Dispatch.lean ====
section
/-! DEFINITION. One arm per operation. `exec i s` is the GLOBAL step (spec/00_scope.md R7) of the state `s` when the
operation SEQ selects is `i`: a sequencer step of `i`, or, where `i` is blocked, the tick (log 7). -/

namespace Sys2Proof.Machine

open Sys2Proof

def exec (i : Instr) (s : State) : Host.Outcome State Fault Refusal :=
  match i with
  | .seth p => Sys2Proof.Machine.execSeth p s
  | .setl p => Sys2Proof.Machine.execSetl p s
  | .dly us => Sys2Proof.Machine.execDly us s
  | .clrc => Sys2Proof.Machine.execClrc s
  | .smpl => Sys2Proof.Machine.execSmpl s
  | .loop a => Sys2Proof.Machine.execLoop a s
  | .capt => Sys2Proof.Machine.execCapt s
  | .lsel => Sys2Proof.Machine.execLsel s
  | .seed => Sys2Proof.Machine.execSeed s
  | .build => Sys2Proof.Machine.execBuild s
  | .wdstop => Sys2Proof.Machine.execWdstop s
  | .phrst => Sys2Proof.Machine.execPhrst s
  | .waitsel => Sys2Proof.Machine.execWaitsel s
  | .drive => Sys2Proof.Machine.execDrive s
  | .wdarm => Sys2Proof.Machine.execWdarm s
  | .phinc => Sys2Proof.Machine.execPhinc s
  | .jmp a => Sys2Proof.Machine.execJmp a s
  | .call a => Sys2Proof.Machine.execCall a s
  | .ret => Sys2Proof.Machine.execRet s

end Sys2Proof.Machine
end

