-- ==== Sys2Proof/Machine/Step.lean ====
section
/-! DEFINITION. Fetch, decode, execute (spec/44_sequencer_control.md R163), and the placing of a word where the next
step fetches. -/

namespace Sys2Proof.Machine

open Sys2Proof

/-- One global step (spec/00_scope.md R7, R163): the word at SEQ is read, decoded and executed. An undefined address
or a reserved word refuses (spec/30_encoding.md R91). -/
def step (s : State) : Host.Outcome State Fault Refusal :=
  match s.fetch with
  | none => .refused (.undefinedAddress s.seq)
  | some w =>
    match decode w with
    | .reject r => .refused (.reservedWord w r)
    | .ok i => exec i s

/-- `s` with a word placed at control-store address SEQ, so that the very next step fetches it (log 2). -/
def State.withFetchWord (s : State) (nbits w : Nat) : State :=
  s.storeWord s.seq (BitVec.ofNat 16 (w % 2 ^ nbits))

end Sys2Proof.Machine
end

