-- ==== Sys2Proof/Safety.lean ====
section
/-! DEFINITION. Runs, and what counts as a sound state of the block running its fixed control store: the terms the
claims are stated in (spec/10_state.md R39 to R41, spec/44_sequencer_control.md R165, spec/60_exceptions.md R181,
spec/40_host_reader.md R109). -/

namespace Sys2Proof.Safety

open Sys2Proof Sys2Proof.Machine

/-- `n` global steps, stopping at the first refusal. A run never ends by itself (spec/00_scope.md R8). -/
def steps : Nat → State → Result
  | 0, s => .next s
  | n + 1, s =>
    match step s with
    | .next t => steps n t
    | .fault r => .fault r
    | .refused r => .refused r

/-- `t` is reached from `s` by some number of global steps. -/
def Reaches (s t : State) : Prop := ∃ n, steps n s = .next t

/-- `t` is reached from power-on with the fixed control store, for some environment and some draw of the unspecified
registers, under parameters within the bounds of R9. -/
def Reachable (t : State) : Prop :=
  ∃ p e d, Params.Ok p ∧ Reaches (State.powerOn p e d) t

/-- SEQ is in the HostReader routine, 0x10 to 0x1B (R108). -/
def InRoutine (s : State) : Prop := 0x10 ≤ s.seq.toNat ∧ s.seq.toNat ≤ 0x1B

/-- SEQ is in the phase loop, 0x07 to 0x0B (R164). -/
def InPhaseLoop (s : State) : Prop := 0x07 ≤ s.seq.toNat ∧ s.seq.toNat ≤ 0x0B

/-- SEQ stands after the SEED at 0x02: in 0x03 to 0x0B, or in the routine called from 0x05 (R21). -/
def Seeded (s : State) : Prop :=
  (0x03 ≤ s.seq.toNat ∧ s.seq.toNat ≤ 0x0B) ∨ (InRoutine s ∧ s.lr = 0x06)

/-- SEQ stands after the LSEL at 0x01. -/
def LaidOut (s : State) : Prop := s.seq.toNat = 0x02 ∨ Seeded s

/-- No delay is in progress and the watchdog is stopped with nothing pending. -/
def Quiet (s : State) : Prop := s.dlyBusy = false ∧ s.wdRun = false ∧ s.restartReq = false

/-- The overrun that the `j`-th delay loaded from `s` on draws (spec/40_host_reader.md R103), the first being number
0. -/
def drawn (s : State) (j : Nat) : Nat := ({ s with drawIx := s.drawIx + j } : State).overrun

/-- The ticks from the start of a read to fall `k` of CLK, with `u` ticks to a microsecond, where the 33 delays of the
read overrun by `e 0` (the latch pulse), `e (2k+1)` and `e (2k+2)` (the low and the high half of cycle `k`). With
`k = 16` it is the length of the whole read. With no overrun these are the instants of R108's table. -/
def clkFallAt (u : Nat) (e : Nat → Nat) : Nat → Nat
  | 0 => 12 * u + e 0
  | k + 1 => clkFallAt u e k + (6 * u + e (2 * k + 1)) + (6 * u + e (2 * k + 2))

/-- The ticks from the start of a read to rise `k` of CLK. -/
def clkRiseAt (u : Nat) (e : Nat → Nat) (k : Nat) : Nat := clkFallAt u e k + (6 * u + e (2 * k + 1))

/-- What holds in every state of a run of the fixed control store. -/
structure RunInv (s : State) : Prop where
  /-- The control store is R164's (R74). -/
  fixed_store : s.csLoad = []
  /-- The watchdog timeout is above 0 (R9). -/
  timeout_pos : 0 < s.par.wdTimeoutTicks
  /-- R165: the sequencer never leaves 0x00..0x0B and 0x10..0x1B. -/
  seq_defined : s.seq.toNat ≤ 0x0B ∨ InRoutine s
  /-- R165: in the routine LR is 0x01 or 0x06. -/
  link : InRoutine s → s.lr = 0x01 ∨ s.lr = 0x06
  /-- R27: LSEL never writes the reserved code 3. -/
  layout_legal : LaidOut s → s.layout ≠ 3
  /-- R39: the schedule is `build` of one word and LAYOUT. -/
  sched_whole : Seeded s → ∃ w lay, layoutOfCode s.layout = some lay ∧ s.sched = build s.par.btnPos w lay
  /-- R39: in the phase loop that word is SNAP. -/
  sched_current : InPhaseLoop s →
    ∃ lay, layoutOfCode s.layout = some lay ∧ s.sched = build s.par.btnPos s.snap lay
  /-- R41: the timer counts only in the phase loop, or at the WDSTOP a restart has just jumped to. -/
  timer_on : s.wdRun = true → InPhaseLoop s ∨ s.seq.toNat = 0x03
  /-- R181: a pending restart stands only at WAITSEL, with the timer counting. -/
  pending_at_wait : s.restartReq = true → s.seq.toNat = 0x07 ∧ s.wdRun = true
  /-- R31, R176: the count stays below the timeout. -/
  count_below : s.wdCnt < s.par.wdTimeoutTicks
  /-- R33: a delay is in progress only at a DLY word. -/
  delay_at_dly : s.dlyBusy = true → s.seq.toNat = 0x11 ∨ s.seq.toNat = 0x16 ∨ s.seq.toNat = 0x18
  /-- R33: with no delay in progress DLY_REM is 0. -/
  delay_idle : s.dlyBusy = false → s.dlyRem = 0
  /-- R106: at the start of a pass of the loop fewer than sixteen samples are in. -/
  samples_before : s.seq.toNat = 0x14 ∨ s.seq.toNat = 0x15 → s.bitcnt.toNat < 16
  /-- R26: from the sample to the loop test the count is 1 to 16. -/
  samples_after : 0x16 ≤ s.seq.toNat ∧ s.seq.toNat ≤ 0x19 → 1 ≤ s.bitcnt.toNat ∧ s.bitcnt.toNat ≤ 16
  /-- R106, R107: after the loop all sixteen samples are in. -/
  samples_all : s.seq.toNat = 0x1A ∨ s.seq.toNat = 0x1B → s.bitcnt.toNat = 16
  /-- R109: LATCH is high exactly during the pulse. -/
  latch_level : s.latch = true ↔ s.seq.toNat = 0x11 ∨ s.seq.toNat = 0x12
  /-- R109: CLK is low exactly during the low half of a cycle. -/
  clk_level : s.clk = false ↔ s.seq.toNat = 0x15 ∨ s.seq.toNat = 0x16 ∨ s.seq.toNat = 0x17
  /-- R29, R144: PHASE is 0 from power-on, and from PHRST, until the phase loop is entered. -/
  phase_zero : s.seq.toNat ≤ 0x02 ∨ s.seq.toNat = 0x05 ∨ s.seq.toNat = 0x06 ∨ InRoutine s → s.phase = 0

end Sys2Proof.Safety
end

