-- ==== Sys2Proof/Certificates/Slice0/Obligations.lean ====
section
/-! DEFINITION. The statements for the provers. Each name says what is stated; each docstring names the rules of
spec/ it formalises. -/

open Sys2Proof Sys2Proof.Machine Sys2Proof.Safety

/-! ## Encodings (spec/30_encoding.md) -/

/-- Words of spec/95_test_vectors.md 2.1 (E1 to E19) decode as the vectors say. -/
def Obligations.SampleWordsDecode : Prop :=
  decode 0x0108 = .ok (.seth .latch) ∧ decode 0x0209 = .ok (.setl .clk) ∧ decode 0x030C = .ok (.dly 12) ∧
  decode 0x0300 = .ok (.dly 0) ∧
  decode 0x03FF = .ok (.dly 255) ∧ decode 0x0614 = .ok (.loop 0x14) ∧ decode 0x1107 = .ok (.jmp 0x07) ∧
  decode 0x1210 = .ok (.call 0x10) ∧ decode 0x0D00 = .ok .waitsel ∧ decode 0x110C = .ok (.jmp 0x0C) ∧
  decode 0x1300 = .ok .ret ∧ decode 0x0000 = .reject .unusedOpcode ∧ decode 0xFFFF = .reject .unusedOpcode ∧
  decode 0x1400 = .reject .unusedOpcode ∧ decode 0x0D01 = .reject .nonzeroArg ∧
  decode 0x0107 = .reject .reservedPin ∧ decode 0x0200 = .reject .reservedPin ∧
  decode 0x1127 = .reject .reservedTarget ∧ decode 0x1301 = .reject .nonzeroArg

/-- Decoding the encoding of a well-formed operation gives it back, with every operand at every value (R86 to R89). -/
def Obligations.DecodeOfEncode : Prop :=
  ∀ i : Instr, i.wellFormed = true → decode (encode i) = .ok i

/-- A word the decoder accepts is the encoding of the well-formed operation it gives: no bit of a word is dropped and
no two words share an operation (R86 to R90). -/
def Obligations.EncodeOfDecode : Prop :=
  ∀ (w : Word) (i : Instr), decode w = .ok i → i.wellFormed = true ∧ encode i = w

/-- The words that select no operation are exactly those R90 lists. -/
def Obligations.ReservedWordsAreRejected : Prop :=
  ∀ w : Word, (∃ r, decode w = .reject r) ↔
    ((w >>> 8) = 0x00 ∨ 0x14 ≤ (w >>> 8).toNat ∨
     (((w >>> 8) = 0x01 ∨ (w >>> 8) = 0x02) ∧ (w &&& 0xFF) ≠ 8 ∧ (w &&& 0xFF) ≠ 9) ∨
     (((w >>> 8) = 0x06 ∨ (w >>> 8) = 0x11 ∨ (w >>> 8) = 0x12) ∧ (w &&& 0xE0) ≠ 0) ∨
     ((w >>> 8) ≠ 0x01 ∧ (w >>> 8) ≠ 0x02 ∧ (w >>> 8) ≠ 0x03 ∧ (w >>> 8) ≠ 0x06 ∧ (w >>> 8) ≠ 0x11 ∧
      (w >>> 8) ≠ 0x12 ∧ (w &&& 0xFF) ≠ 0))

/-- Selection by mask and match (R89): an operation without operand by the whole word, one with an operand by the
high byte, and then the operand check of R87. -/
def Obligations.MaskAndMatchSelect : Prop :=
  ∀ (w : Word),
    (∀ p : Word × Instr, p ∈ [(0x04, Instr.clrc), (0x05, .smpl), (0x07, .capt), (0x08, .lsel), (0x09, .seed),
        (0x0A, .build), (0x0B, .wdstop), (0x0C, .phrst), (0x0D, .waitsel), (0x0E, .drive), (0x0F, .wdarm),
        (0x10, .phinc), (0x13, .ret)] →
      (decode w = .ok p.2 ↔ (w &&& (0xFFFF : Word)) = p.1 <<< (8 : Nat))) ∧
    (∀ p : Pin, (decode w = .ok (.seth p) ↔
        (w &&& 0xFF00) = 0x0100 ∧ ((p = .latch ∧ argOf w = 8) ∨ (p = .clk ∧ argOf w = 9))) ∧
      (decode w = .ok (.setl p) ↔
        (w &&& 0xFF00) = 0x0200 ∧ ((p = .latch ∧ argOf w = 8) ∨ (p = .clk ∧ argOf w = 9)))) ∧
    (∀ us : BitVec 8, decode w = .ok (.dly us) ↔ (w &&& 0xFF00) = 0x0300 ∧ argOf w = us) ∧
    (∀ a : Addr, (decode w = .ok (.loop a) ↔ (w &&& 0xFF00) = 0x0600 ∧ argOf w = a.setWidth 8) ∧
      (decode w = .ok (.jmp a) ↔ (w &&& 0xFF00) = 0x1100 ∧ argOf w = a.setWidth 8) ∧
      (decode w = .ok (.call a) ↔ (w &&& 0xFF00) = 0x1200 ∧ argOf w = a.setWidth 8))

/-! ## Fetch and step (spec/44_sequencer_control.md section 2) -/

/-- Where the word at SEQ decodes to an operation, one step is that operation's execution, and nothing else is done
around it (R163). -/
def Obligations.StepRunsDecodedInstruction : Prop :=
  ∀ (s : State) (w : Word) (i : Instr), s.fetch = some w → decode w = .ok i → step s = exec i s

/-- A fetch from an address that holds no word, or of a word that selects no operation, refuses (R91). -/
def Obligations.UndefinedFetchRefuses : Prop :=
  (∀ s : State, s.fetch = none → step s = .refused (.undefinedAddress s.seq)) ∧
  (∀ (s : State) (w : Word) (r : DecodeReject), s.fetch = some w → decode w = .reject r →
    step s = .refused (.reservedWord w r)) ∧
  (∀ s : State, s.csLoad = [] →
    ((0x0C ≤ s.seq.toNat ∧ s.seq.toNat ≤ 0x0F) ∨ 0x1C ≤ s.seq.toNat) →
    step s = .refused (.undefinedAddress s.seq))

/-- The fixed control store is the listing of R164, operation by operation, and undefined elsewhere. -/
def Obligations.FixedStoreIsTheListing : Prop :=
  ∀ s : State, s.csLoad = [] →
    s.fetch.map decode =
      ([some (.call 0x10), some .lsel, some .seed, some .wdstop, some .phrst, some (.call 0x10), some .build,
        some .waitsel, some .drive, some .wdarm, some .phinc, some (.jmp 0x07), none, none, none, none,
        some (.seth .latch), some (.dly 12), some (.setl .latch), some .clrc, some (.setl .clk), some .smpl,
        some (.dly 6), some (.seth .clk), some (.dly 6), some (.loop 0x14), some .capt, some .ret,
        none, none, none, none] : List (Option Instr))[s.seq.toNat]!.map Decoded.ok

/-- A word placed where the next step fetches is the word the next step runs, and placing it changes nothing else. -/
def Obligations.PlacedWordRuns : Prop :=
  ∀ (s : State) (i : Instr), i.wellFormed = true →
    step (s.withFetchWord 16 (encode i).toNat) = exec i (s.withFetchWord 16 (encode i).toNat) ∧
    s.withFetchWord 16 (encode i).toNat = { s with csLoad := (s.withFetchWord 16 (encode i).toNat).csLoad } ∧
    ∀ a, a ≠ s.seq.toNat → (s.withFetchWord 16 (encode i).toNat).csLoad.read a = s.csLoad.read a

/-! ## HostReader operations (spec/40_host_reader.md) -/

/-- SETH (R101): the named host line goes high and SEQ advances; every other word of opcode 0x01 is reserved. -/
def Obligations.SethDrivesLineHigh : Prop :=
  decode 0x0108 = .ok (.seth .latch) ∧ decode 0x0109 = .ok (.seth .clk) ∧
  (∀ arg : BitVec 8, arg ≠ 8 → arg ≠ 9 → decode (wordOf 0x01 arg) = .reject .reservedPin) ∧
  ∀ s : State, s.seq ≠ 0x1F →
    exec (.seth .latch) s = .next { s with latch := true, seq := s.seq + 1 } ∧
    exec (.seth .clk) s = .next { s with clk := true, seq := s.seq + 1 }

/-- SETL (R102): the named host line goes low and SEQ advances; every other word of opcode 0x02 is reserved. -/
def Obligations.SetlDrivesLineLow : Prop :=
  decode 0x0208 = .ok (.setl .latch) ∧ decode 0x0209 = .ok (.setl .clk) ∧
  (∀ arg : BitVec 8, arg ≠ 8 → arg ≠ 9 → decode (wordOf 0x02 arg) = .reject .reservedPin) ∧
  ∀ s : State, s.seq ≠ 0x1F →
    exec (.setl .latch) s = .next { s with latch := false, seq := s.seq + 1 } ∧
    exec (.setl .clk) s = .next { s with clk := false, seq := s.seq + 1 }

/-- DLY (R103): the load with a draw within the bound, the wait as a tick, the completion. The counter of draws is
the model's own. -/
def Obligations.DlyLoadsWaitsCompletes : Prop :=
  ∀ (us : BitVec 8) (s : State),
    (s.dlyBusy = false → ∃ e d, e ≤ s.par.dlySlackTicks ∧
      exec (.dly us) s =
        .next { s with dlyRem := us.toNat * s.par.ticksPerUs + e, dlyBusy := true, drawIx := d }) ∧
    (s.dlyBusy = true → s.dlyRem = 0 → s.seq ≠ 0x1F →
      exec (.dly us) s = .next { s with dlyBusy := false, seq := s.seq + 1 }) ∧
    (s.dlyBusy = true → s.dlyRem ≠ 0 → exec (.dly us) s = .next s.tick)

/-- The operation after a DLY executes exactly `arg * TICKS_PER_US + e` ticks after the operation before it (R103),
and no register but the delay's own changes meanwhile. -/
def Obligations.DlyTakesItsTicks : Prop :=
  ∀ (us : BitVec 8) (s : State) (w : Word), s.fetch = some w → decode w = .ok (.dly us) →
    s.dlyBusy = false → s.wdRun = false → s.seq ≠ 0x1F →
    ∃ e d, e ≤ s.par.dlySlackTicks ∧
      steps (us.toNat * s.par.ticksPerUs + e + 2) s =
        .next { s with now := s.now + (us.toNat * s.par.ticksPerUs + e), dlyRem := 0, drawIx := d,
                       seq := s.seq + 1 }

/-- CLRC (R104). -/
def Obligations.ClrcClearsCount : Prop :=
  decode 0x0400 = .ok .clrc ∧
  ∀ s : State, s.seq ≠ 0x1F → exec .clrc s = .next { s with bitcnt := 0, seq := s.seq + 1 }

/-- SMPL (R105, with R12 for the shift): the level of DATA at the present instant enters bit 0, every bit moves one
place up, the old bit 15 is lost, BITCNT counts. At BITCNT = 31 the sum does not fit and its value is open (log 6);
the rest of the effect is the same. -/
def Obligations.SmplShiftsDataIn : Prop :=
  decode 0x0500 = .ok .smpl ∧
  ∀ s : State, s.seq ≠ 0x1F → ∃ (v : Word) (b : BitVec 5) (d : Nat),
    v.getLsbD 0 = s.env.dataAt s.now ∧ (∀ k, k < 15 → v.getLsbD (k + 1) = s.shreg.getLsbD k) ∧
    (s.bitcnt ≠ 31 → b = s.bitcnt + 1 ∧ d = s.drawIx) ∧
    exec .smpl s = .next { s with shreg := v, bitcnt := b, drawIx := d, seq := s.seq + 1 }

/-- LOOP (R106). -/
def Obligations.LoopUntilSixteen : Prop :=
  decode 0x0614 = .ok (.loop 0x14) ∧
  ∀ (a : Addr) (s : State),
    (s.bitcnt ≠ 16 → exec (.loop a) s = .next { s with seq := a }) ∧
    (s.bitcnt = 16 → s.seq ≠ 0x1F → exec (.loop a) s = .next { s with seq := s.seq + 1 })

/-- CAPT (R107): SNAP is written whole, and nothing else but SEQ changes. -/
def Obligations.CaptCopiesShiftRegister : Prop :=
  decode 0x0700 = .ok .capt ∧
  ∀ s : State, s.seq ≠ 0x1F → exec .capt s = .next { s with snap := s.shreg, seq := s.seq + 1 }

/-! ## LayoutSelector (spec/41_layout_selector.md) -/

/-- LSEL (R120, R121): Left low gives 1 (AB), else Right low gives 0 (BC), else 2 (XC). -/
def Obligations.LselChoosesLayout : Prop :=
  decode 0x0800 = .ok .lsel ∧
  ∀ s : State, s.seq ≠ 0x1F →
    exec .lsel s = .next { s with
      layout := if s.snap.getLsbD (s.par.btnPos.left.val) = false then 1
                else if s.snap.getLsbD (s.par.btnPos.right.val) = false then 0 else 2,
      seq := s.seq + 1 }

/-- `select` (R121) on every word: AB if the bit of Left is 0, else BC if the bit of Right is 0, else XC; so it is
decided by those two bits alone. -/
def Obligations.SelectReadsTwoBits : Prop :=
  (∀ (pos : BtnPos) (w : Word),
    select pos w = if w.getLsbD pos.left.val = false then .ab
                   else if w.getLsbD pos.right.val = false then .bc else .xc) ∧
  ∀ (pos : BtnPos) (v w : Word),
    v.getLsbD pos.left.val = w.getLsbD pos.left.val → v.getLsbD pos.right.val = w.getLsbD pos.right.val →
    select pos v = select pos w

/-! ## ScheduleBuilder (spec/42_schedule_builder.md) -/

/-- The eight entries as numbers (R128, with R126 for the resolution of the logical buttons). -/
def Obligations.BuildEntriesAsNumbers : Prop :=
  ∀ (pos : BtnPos) (w : Word) (lay : Layout),
    let n : Button → Nat := fun btn => (w.getLsbD (pos.at btn).val).toNat
    let a := match lay with | .bc => n .a | .ab => n .y | .xc => n .b
    let b := match lay with | .bc => n .y | .ab => n .b | .xc => n .a
    let c := match lay with | .bc => n .b | .ab => n .a | .xc => n .r
    let x := match lay with | .bc => n .l | .ab => n .l | .xc => n .y
    let y := n .x
    let z := match lay with | .bc => n .r | .ab => n .r | .xc => n .l
    let t := build pos w lay
    t.e0.toNat = n .up + 2 * n .down + 4 * n .left + 8 * n .right + 16 * b + 32 * c ∧
    t.e1.toNat = n .up + 2 * n .down + 16 * a + 32 * n .start ∧
    t.e5.toNat = 16 * a + 32 * n .start ∧
    t.e6.toNat = z + 2 * y + 4 * x + 8 * n .select + 16 * b + 32 * c ∧
    t.e7.toNat = 15 + 16 * a + 32 * n .start ∧
    t.e2 = t.e0 ∧ t.e4 = t.e0 ∧ t.e3 = t.e1

/-- The properties R133 lists, (1) to (6). -/
def Obligations.ScheduleStructure : Prop :=
  ∀ (pos : BtnPos), Function.Injective pos.at →
    (∀ (w : Word) (lay : Layout),
      let t := build pos w lay
      (t.e2 = t.e0 ∧ t.e4 = t.e0 ∧ t.e3 = t.e1) ∧
      (t.e1 &&& 0x0C = 0 ∧ t.e3 &&& 0x0C = 0 ∧ t.e5 &&& 0x0F = 0 ∧ t.e7 &&& 0x0F = 0x0F) ∧
      (t.e1 >>> 4 = t.e3 >>> 4 ∧ t.e1 >>> 4 = t.e5 >>> 4 ∧ t.e1 >>> 4 = t.e7 >>> 4) ∧
      (t.e0 >>> 4 = t.e2 >>> 4 ∧ t.e0 >>> 4 = t.e4 >>> 4 ∧ t.e0 >>> 4 = t.e6 >>> 4)) ∧
    (∀ w : Word, (∀ btn, pressed pos w btn = true ↔ btn = .a) →
      ∀ face, ll pos w .bc face = false ↔ face = .a) ∧
    (∀ w : Word, (∀ btn, pressed pos w btn = true ↔ btn = .b) → ll pos w .xc .a = false) ∧
    (∀ lay, build pos 0xFFFF lay = ⟨0x3F, 0x33, 0x3F, 0x33, 0x3F, 0x30, 0x3F, 0x3F⟩) ∧
    (∀ (v w : Word) (lay : Layout), (∀ btn, lvl pos v btn = lvl pos w btn) → build pos v lay = build pos w lay)

/-- SEED (R131): the idle schedule, whatever the layout; all eight entries in one step. -/
def Obligations.SeedWritesIdleSchedule : Prop :=
  decode 0x0900 = .ok .seed ∧
  ∀ s : State, s.layout ≠ 3 → s.seq ≠ 0x1F →
    exec .seed s = .next { s with sched := ⟨0x3F, 0x33, 0x3F, 0x33, 0x3F, 0x30, 0x3F, 0x3F⟩, seq := s.seq + 1 }

/-- BUILD (R132): the schedule of SNAP under LAYOUT, codes 0, 1, 2 standing for BC, AB, XC (R83); all eight entries
in one step. -/
def Obligations.BuildWritesSchedule : Prop :=
  decode 0x0A00 = .ok .build ∧
  ∀ s : State, s.seq ≠ 0x1F →
    (s.layout = 0 → exec .build s =
      .next { s with sched := build s.par.btnPos s.snap .bc, seq := s.seq + 1 }) ∧
    (s.layout = 1 → exec .build s =
      .next { s with sched := build s.par.btnPos s.snap .ab, seq := s.seq + 1 }) ∧
    (s.layout = 2 → exec .build s =
      .next { s with sched := build s.par.btnPos s.snap .xc, seq := s.seq + 1 })

/-- The reserved layout code 3 is refused by SEED and BUILD (U12, D11), whatever the rest of the state; neither LSEL
nor any other operation ever writes it. -/
def Obligations.ReservedLayoutRefused : Prop :=
  (∀ s : State, s.layout = 3 → exec .seed s = .refused .reservedLayout ∧ exec .build s = .refused .reservedLayout) ∧
  (∀ (i : Instr) (s t : State), exec i s = .next t → s.layout ≠ 3 → t.layout ≠ 3)

/-! ## EmulationEngine (spec/43_emulation_engine.md) -/

/-- WDSTOP (R140): WD_RUN and RESTART_REQ are cleared, WD_CNT keeps its value. -/
def Obligations.WdstopStopsTimer : Prop :=
  decode 0x0B00 = .ok .wdstop ∧
  ∀ s : State, s.seq ≠ 0x1F →
    exec .wdstop s = .next { s with wdRun := false, restartReq := false, seq := s.seq + 1 }

/-- PHRST (R144). -/
def Obligations.PhrstResetsPhase : Prop :=
  decode 0x0C00 = .ok .phrst ∧
  ∀ s : State, s.seq ≠ 0x1F → exec .phrst s = .next { s with phase := 0, seq := s.seq + 1 }

/-- WAITSEL (R143, with R141 for the awaited level): the pending restart is taken first and saves nothing; else the
awaited level, SEL_ACTIVE in even phases and the other level in odd ones, lets the sequencer go on; else the step is
a tick. -/
def Obligations.WaitselTakesRestartOrLevel : Prop :=
  decode 0x0D00 = .ok .waitsel ∧
  ∀ s : State,
    (s.restartReq = true → exec .waitsel s = .next { s with restartReq := false, seq := 0x03 }) ∧
    (s.restartReq = false → s.phase.toNat % 2 = 0 → s.env.selAt s.now = s.par.selActive → s.seq ≠ 0x1F →
      exec .waitsel s = .next { s with seq := s.seq + 1 }) ∧
    (s.restartReq = false → s.phase.toNat % 2 = 1 → s.env.selAt s.now ≠ s.par.selActive → s.seq ≠ 0x1F →
      exec .waitsel s = .next { s with seq := s.seq + 1 }) ∧
    (s.restartReq = false → s.phase.toNat % 2 = 0 → s.env.selAt s.now ≠ s.par.selActive →
      exec .waitsel s = .next s.tick) ∧
    (s.restartReq = false → s.phase.toNat % 2 = 1 → s.env.selAt s.now = s.par.selActive →
      exec .waitsel s = .next s.tick)

/-- DRIVE (R145): the entry of the present phase goes to the six lines, bit i to OUTi, without inversion. -/
def Obligations.DriveCopiesEntry : Prop :=
  decode 0x0E00 = .ok .drive ∧
  ∀ s : State, s.seq ≠ 0x1F →
    exec .drive s = .next { s with
      out := if s.phase = 0 then s.sched.e0 else if s.phase = 1 then s.sched.e1
             else if s.phase = 2 then s.sched.e2 else if s.phase = 3 then s.sched.e3
             else if s.phase = 4 then s.sched.e4 else if s.phase = 5 then s.sched.e5
             else if s.phase = 6 then s.sched.e6 else s.sched.e7,
      seq := s.seq + 1 }

/-- WDARM (R146): armed from zero when PHASE is not 0; nothing at all but SEQ when it is. -/
def Obligations.WdarmArmsAfterPhaseZero : Prop :=
  decode 0x0F00 = .ok .wdarm ∧
  ∀ s : State, s.seq ≠ 0x1F →
    (s.phase ≠ 0 → exec .wdarm s = .next { s with wdCnt := 0, wdRun := true, seq := s.seq + 1 }) ∧
    (s.phase = 0 → exec .wdarm s = .next { s with seq := s.seq + 1 })

/-- PHINC (R147): PHASE advances by one modulo 8. -/
def Obligations.PhincAdvancesPhase : Prop :=
  decode 0x1000 = .ok .phinc ∧
  ∀ s : State, s.seq ≠ 0x1F → ∃ n : Phase, n.toNat = (s.phase.toNat + 1) % 8 ∧
    exec .phinc s = .next { s with phase := n, seq := s.seq + 1 }

/-! ## Sequencer control (spec/44_sequencer_control.md) -/

/-- JMP (R160): no link is saved; every target is legal, an undefined one makes the next fetch refuse. -/
def Obligations.JmpSetsSeq : Prop :=
  decode 0x1107 = .ok (.jmp 0x07) ∧
  (∀ (a : Addr) (s : State), exec (.jmp a) s = .next { s with seq := a }) ∧
  ∀ (a : Addr) (s t : State), exec (.jmp a) s = .next t → s.csLoad.read a.toNat = none →
    step t = .refused (.undefinedAddress a)

/-- CALL (R161). -/
def Obligations.CallLinksAndJumps : Prop :=
  decode 0x1210 = .ok (.call 0x10) ∧
  ∀ (a : Addr) (s : State), s.seq ≠ 0x1F → exec (.call a) s = .next { s with lr := s.seq + 1, seq := a }

/-- RET (R162): LR is unchanged. -/
def Obligations.RetReturnsToLink : Prop :=
  decode 0x1300 = .ok .ret ∧
  ∀ s : State, exec .ret s = .next { s with seq := s.lr }

/-- SEQ + 1 at 0x1F is refused rather than wrapped, by every operation that would compute it (R21); JMP, RET, a LOOP
that is taken and the restart branch of WAITSEL do not compute it and run. -/
def Obligations.SeqPastEndRefuses : Prop :=
  ∀ s : State, s.seq = 0x1F →
    (∀ i ∈ [Instr.seth .latch, .seth .clk, .setl .latch, .setl .clk, .clrc, .smpl, .capt, .lsel, .wdstop, .phrst,
        .drive, .wdarm, .phinc], exec i s = .refused .seqPastEnd) ∧
    (∀ a, exec (.call a) s = .refused .seqPastEnd) ∧
    (s.layout ≠ 3 → exec .seed s = .refused .seqPastEnd ∧ exec .build s = .refused .seqPastEnd) ∧
    (s.bitcnt = 16 → ∀ a, exec (.loop a) s = .refused .seqPastEnd) ∧
    (s.dlyBusy = true → s.dlyRem = 0 → ∀ us, exec (.dly us) s = .refused .seqPastEnd) ∧
    (s.restartReq = false → s.env.selAt s.now = awaited s.par.selActive s.phase →
      exec .waitsel s = .refused .seqPastEnd)

/-! ## The tick and the whole machine -/

/-- The WDT rule in a tick step (R176): time advances by one, the count and the pending flag change as the rule says,
WD_RUN stays; and a delay in progress loses one tick (R7). Nothing else changes (R70). -/
def Obligations.TickCountsTimerAndDelay : Prop :=
  ∀ s : State, ∃ (c : Nat) (q : Bool) (r : Nat),
    s.tick = { s with now := s.now + 1, wdCnt := c, restartReq := q, dlyRem := r } ∧
    (s.wdRun = false → c = s.wdCnt ∧ q = s.restartReq) ∧
    (s.wdRun = true → s.wdCnt + 1 = s.par.wdTimeoutTicks → c = 0 ∧ q = true) ∧
    (s.wdRun = true → s.wdCnt + 1 ≠ s.par.wdTimeoutTicks → c = s.wdCnt + 1 ∧ q = s.restartReq) ∧
    (s.dlyBusy = true → 0 < s.dlyRem → r = s.dlyRem - 1) ∧
    ((s.dlyBusy = false ∨ s.dlyRem = 0) → r = s.dlyRem)

/-- Time passes only while the sequencer is blocked, in WAITSEL or in a DLY, and then the step is the tick; every
other step takes zero time (R7). -/
def Obligations.TimePassesOnlyWhenBlocked : Prop :=
  ∀ (i : Instr) (s t : State), exec i s = .next t →
    t.now = s.now ∨
    (t = s.tick ∧ t.now = s.now + 1 ∧
      ((i = .waitsel ∧ s.restartReq = false ∧ s.env.selAt s.now ≠ awaited s.par.selActive s.phase) ∨
       (∃ us, i = .dly us ∧ s.dlyBusy = true ∧ 0 < s.dlyRem)))

/-- No operation other than those R20 lists under "written by" changes a register, a store or a latch (R20, R61). -/
def Obligations.RegistersHaveTheirWriters : Prop :=
  ∀ (i : Instr) (s t : State), exec i s = .next t →
    (t.lr ≠ s.lr → ∃ a, i = .call a) ∧
    (t.shreg ≠ s.shreg → i = .smpl) ∧
    (t.bitcnt ≠ s.bitcnt → i = .clrc ∨ i = .smpl) ∧
    (t.snap ≠ s.snap → i = .capt) ∧
    (t.layout ≠ s.layout → i = .lsel) ∧
    (t.sched ≠ s.sched → i = .seed ∨ i = .build) ∧
    (t.phase ≠ s.phase → i = .phrst ∨ i = .phinc) ∧
    (t.wdRun ≠ s.wdRun → i = .wdarm ∨ i = .wdstop) ∧
    (t.wdCnt ≠ s.wdCnt → i = .wdarm ∨ t = s.tick) ∧
    (t.restartReq ≠ s.restartReq → i = .waitsel ∨ i = .wdstop ∨ t = s.tick) ∧
    (t.dlyRem ≠ s.dlyRem → (∃ us, i = .dly us) ∨ t = s.tick) ∧
    (t.dlyBusy ≠ s.dlyBusy → ∃ us, i = .dly us) ∧
    (t.out ≠ s.out → i = .drive) ∧
    (t.latch ≠ s.latch → i = .seth .latch ∨ i = .setl .latch) ∧
    (t.clk ≠ s.clk → i = .seth .clk ∨ i = .setl .clk)

/-- No step changes a parameter, an input function or a word of the control store (R38, R74). -/
def Obligations.ParametersAndStoreAreConstant : Prop :=
  ∀ s t : State, step s = .next t →
    t.par = s.par ∧ t.env = s.env ∧ ∀ a, t.csLoad.read a = s.csLoad.read a

/-! ## Reset (spec/70_reset_and_hazards.md) -/

/-- The reset values the spec gives (R20, R200, Z1), for every parameter set, environment and draw; the machine's own
reset is one such power-on, with the open OUT_RESET on the output lines. -/
def Obligations.ResetValues : Prop :=
  (∀ p e d, let s := State.powerOn p e d
    s.seq = 0x00 ∧ s.phase = 0 ∧ s.wdRun = false ∧ s.wdCnt = 0 ∧ s.restartReq = false ∧ s.dlyRem = 0 ∧
    s.dlyBusy = false ∧ s.latch = false ∧ s.clk = true ∧ s.now = 0 ∧ s.csLoad = []) ∧
  (∃ p e d, Params.Ok p ∧ State.reset = State.powerOn p e d ∧ d.out = Config.outReset)

/-- The invariant holds at power-on, whatever is drawn, and at the machine's reset. -/
def Obligations.PowerOnMeetsInvariant : Prop :=
  (∀ p e d, Params.Ok p → RunInv (State.powerOn p e d)) ∧ RunInv State.reset

/-! ## The block running its fixed control store -/

/-- Every step from a state that meets the invariant gives a next state, and it meets the invariant: no run of the
fixed control store refuses (R13) or ends (R8). -/
def Obligations.StepKeepsInvariant : Prop :=
  ∀ s : State, RunInv s → ∃ t, step s = .next t ∧ RunInv t

/-- From power-on every number of steps can be made: "no run of the block refuses" (R13), "A run never ends" (R8). -/
def Obligations.RunNeverEnds : Prop :=
  ∀ p e d, Params.Ok p → ∀ n, ∃ t, steps n (State.powerOn p e d) = .next t

/-- R40: in the HostReader routine and on the restart path after WDSTOP the timer is stopped and nothing is
pending. -/
def Obligations.TimerStoppedWhileReading : Prop :=
  ∀ t : State, Reachable t →
    ((0x04 ≤ t.seq.toNat ∧ t.seq.toNat ≤ 0x06) ∨ (0x10 ≤ t.seq.toNat ∧ t.seq.toNat ≤ 0x1B)) →
    t.wdRun = false ∧ t.restartReq = false

/-- R41: whenever the timer counts, SEQ is in the phase loop or at the WDSTOP of a restart, and a step that raises
the pending flag is made at WAITSEL. -/
def Obligations.TimerCountsOnlyInPhaseLoop : Prop :=
  ∀ t : State, Reachable t →
    (t.wdRun = true → (0x07 ≤ t.seq.toNat ∧ t.seq.toNat ≤ 0x0B) ∨ t.seq.toNat = 0x03) ∧
    (∀ u, step t = .next u → t.restartReq = false → u.restartReq = true → t.seq.toNat = 0x07)

/-- R181, R73: a pending restart stands only at WAITSEL, and the very next step takes it in the same instant. -/
def Obligations.RestartTakenAtOnce : Prop :=
  ∀ t : State, Reachable t → t.restartReq = true →
    t.seq.toNat = 0x07 ∧ step t = .next { t with restartReq := false, seq := 0x03 }

/-- R39: once SEED has run the schedule is `build` of one word and LAYOUT, never a mixture; in the phase loop that
word is SNAP. -/
def Obligations.ScheduleIsOneBuild : Prop :=
  ∀ t : State, Reachable t →
    (Seeded t → ∃ w lay, layoutOfCode t.layout = some lay ∧ t.sched = build t.par.btnPos w lay) ∧
    (InPhaseLoop t → ∃ lay, layoutOfCode t.layout = some lay ∧ t.sched = build t.par.btnPos t.snap lay)

/-- R109: outside the routine LATCH is low and CLK is high; LATCH is high only at 0x11 and 0x12, CLK low only at 0x15
to 0x17. -/
def Obligations.HostLinesRestOutsideRead : Prop :=
  ∀ t : State, Reachable t →
    (¬ InRoutine t → t.latch = false ∧ t.clk = true) ∧
    (t.latch = true ↔ t.seq.toNat = 0x11 ∨ t.seq.toNat = 0x12) ∧
    (t.clk = false ↔ 0x15 ≤ t.seq.toNat ∧ t.seq.toNat ≤ 0x17)

/-- R165: the sequencer never leaves 0x00..0x0B and 0x10..0x1B, and no step goes back to 0x00; 0x01 and 0x02 are
entered only from the return of the first read and from 0x01. Once past SEED it stays past it: it never goes back to
the power-on path, which is 0x00 to 0x02 and the routine with LR = 0x01 (R21). -/
def Obligations.SequencerStaysInDefinedWords : Prop :=
  ∀ t : State, Reachable t →
    (t.seq.toNat ≤ 0x0B ∨ (0x10 ≤ t.seq.toNat ∧ t.seq.toNat ≤ 0x1B)) ∧
    ∀ u, step t = .next u →
      u.seq.toNat ≠ 0x00 ∧ (u.seq.toNat = 0x01 → t.seq.toNat = 0x1B ∧ t.lr = 0x01) ∧
      (u.seq.toNat = 0x02 → t.seq.toNat = 0x01) ∧
      (Seeded t → Seeded u ∧ ¬ (u.seq.toNat ≤ 0x02 ∨ (InRoutine u ∧ u.lr = 0x01)))

/-- R122, R27: once the layout has been chosen no later step of any length changes it. -/
def Obligations.LayoutNeverReassigned : Prop :=
  ∀ s t : State, RunInv s → LaidOut s → Reaches s t → t.layout = s.layout ∧ LaidOut t

/-- R108, R100, for every bound on the overruns: one read, entered at 0x10, takes its 33 delays with their draws (204
microseconds with none), writes SNAP with the sixteen samples taken at the falling edges, most significant bit first,
and returns; the output lines, the schedule, the phase, the layout and the timer are as before. -/
def Obligations.HostReaderTakesSnapshot : Prop :=
  ∀ s : State, s.csLoad = [] → s.seq = 0x10 → Quiet s →
    let fall := clkFallAt s.par.ticksPerUs (drawn s)
    ∃ t : State, steps (135 + fall 16) s = .next t ∧
      (∀ k, k < 16 → t.snap.getLsbD (15 - k) = s.env.dataAt (s.now + fall k)) ∧
      t = { s with now := s.now + fall 16, snap := t.snap, shreg := t.snap, bitcnt := 16,
                   latch := false, clk := true, dlyRem := 0, drawIx := s.drawIx + 33, seq := s.lr }

/-- R108's pin events and R109, for every bound on the overruns, from LATCH low and CLK high: LATCH rises with the first
step, at t0, and falls when its delay is over; CLK falls and rises at the sixteen pairs of instants that the draws give;
and in every state of the read, between these events too, both lines stand as the events before have left them, so that
LATCH is high in one interval and CLK low in sixteen. -/
def Obligations.HostReaderWaveform : Prop :=
  ∀ s : State, s.csLoad = [] → s.seq = 0x10 → Quiet s → s.latch = false → s.clk = true →
    let fall := clkFallAt s.par.ticksPerUs (drawn s)
    let rise := clkRiseAt s.par.ticksPerUs (drawn s)
    (∀ n, n ≤ 135 + fall 16 → ∃ t, steps n s = .next t ∧
      (t.latch = true ↔ 1 ≤ n ∧ n ≤ 3 + fall 0) ∧
      (t.clk = false ↔ ∃ k, k < 16 ∧ 6 + 8 * k + fall k ≤ n ∧ n ≤ 9 + 8 * k + rise k)) ∧
    (∃ t, steps 1 s = .next t ∧ t.now = s.now) ∧
    (∃ t, steps (4 + fall 0) s = .next t ∧ t.now = s.now + fall 0) ∧
    ∀ k, k < 16 →
      (∃ t, steps (6 + 8 * k + fall k) s = .next t ∧ t.now = s.now + fall k) ∧
      (∃ t, steps (10 + 8 * k + rise k) s = .next t ∧ t.now = s.now + rise k)

/-- R166, for every bound on the overruns: the boot. Two reads, of 204 microseconds each with no overrun; the layout is
chosen from the first, the schedule that waits to be driven is built from the second; when the second is over the
sequencer is at WAITSEL in phase 0 with the timer stopped, and the output lines are still as at reset. -/
def Obligations.BootReachesPhaseZero : Prop :=
  ∀ p e d, Params.Ok p →
    let s := State.powerOn p e d
    let fall₁ := clkFallAt p.ticksPerUs (drawn s)
    let fall₂ := clkFallAt p.ticksPerUs (fun j => drawn s (33 + j))
    ∃ (t : State) (first : Word), steps (277 + (fall₁ 16 + fall₂ 16)) s = .next t ∧
      (∀ k, k < 16 → first.getLsbD (15 - k) = e.dataAt (fall₁ k)) ∧
      (∀ k, k < 16 → t.snap.getLsbD (15 - k) = e.dataAt (fall₁ 16 + fall₂ k)) ∧
      t.seq = 0x07 ∧ t.phase = 0 ∧ t.now = fall₁ 16 + fall₂ 16 ∧ t.wdRun = false ∧ t.restartReq = false ∧
      t.layout = codeOfLayout (select p.btnPos first) ∧
      t.sched = build p.btnPos t.snap (select p.btnPos first) ∧ t.out = d.out ∧ t.lr = 0x06

/-- R148: with the awaited level present the whole transition of a phase is five steps in one instant. -/
def Obligations.PhaseTransitionIsOneInstant : Prop :=
  ∀ s : State, s.csLoad = [] → s.seq = 0x07 → s.restartReq = false →
    s.env.selAt s.now = awaited s.par.selActive s.phase →
    steps 5 s = .next { s with
      out := s.sched.entry s.phase,
      wdCnt := if s.phase = 0 then s.wdCnt else 0,
      wdRun := if s.phase = 0 then s.wdRun else true,
      phase := s.phase + 1 }

/-- R150, R176, R182: with the timer counting and the awaited level absent until the expiry, the restart is taken in
the instant the count reaches the timeout, whatever SEL is at that instant; nothing is saved and nothing else has
changed. -/
def Obligations.ExpiryTakesRestart : Prop :=
  ∀ (s : State) (n : Nat), s.csLoad = [] → s.seq = 0x07 → s.wdRun = true → s.restartReq = false →
    s.dlyBusy = false → 0 < n → s.wdCnt + n = s.par.wdTimeoutTicks →
    (∀ k, k < n → s.env.selAt (s.now + k) ≠ awaited s.par.selActive s.phase) →
    steps (n + 1) s = .next { s with now := s.now + n, wdCnt := 0, restartReq := false, seq := 0x03 }

/-- R180, R150, R211, for every bound on the overruns: the restart path from 0x03 stops the timer, resets PHASE, reads
the host controller, rebuilds the schedule from the fresh snapshot and waits in phase 0, after the length of one read
(204 microseconds with no overrun); the output lines and the layout are as before. -/
def Obligations.RestartPathResamples : Prop :=
  ∀ (s : State) (lay : Layout), s.csLoad = [] → s.seq = 0x03 → s.dlyBusy = false →
    layoutOfCode s.layout = some lay →
    let fall := clkFallAt s.par.ticksPerUs (drawn s)
    ∃ t : State, steps (139 + fall 16) s = .next t ∧
      (∀ k, k < 16 → t.snap.getLsbD (15 - k) = s.env.dataAt (s.now + fall k)) ∧
      t = { s with now := s.now + fall 16, snap := t.snap, shreg := t.snap, bitcnt := 16,
                   latch := false, clk := true, dlyRem := 0, drawIx := s.drawIx + 33, lr := 0x06,
                   wdRun := false, restartReq := false, phase := 0,
                   sched := build s.par.btnPos t.snap lay, seq := 0x07 }

/-- R149: from phase 0, eight awaited levels at rising instants, each held until the next and each gap after the first
shorter than the timeout, drive the entries 0 to 7 in order and bring the engine back to phase 0 with no restart and
the schedule unchanged. `at_ k` is the instant of level k. -/
def Obligations.EightLevelsMakeOneCycle : Prop :=
  ∀ (s : State) (at_ : Nat → Nat), s.csLoad = [] → s.seq = 0x07 → s.phase = 0 → s.restartReq = false →
    s.dlyBusy = false → s.now ≤ at_ 0 →
    (∀ τ, s.now ≤ τ → τ < at_ 0 → s.env.selAt τ ≠ awaited s.par.selActive 0) →
    (∀ k, k < 7 → at_ k < at_ (k + 1)) →
    (∀ k, k < 8 → s.env.selAt (at_ k) = awaited s.par.selActive (BitVec.ofNat 3 k)) →
    (∀ k, k < 7 → ∀ τ, at_ k ≤ τ → τ < at_ (k + 1) →
      s.env.selAt τ = awaited s.par.selActive (BitVec.ofNat 3 k)) →
    (∀ k, 1 ≤ k → k < 7 → at_ (k + 1) - at_ k < s.par.wdTimeoutTicks) →
    (s.wdRun = true → s.wdCnt + (at_ 1 - s.now) < s.par.wdTimeoutTicks) →
    ∀ k, k < 8 → ∃ t, steps ((at_ k - s.now) + 5 * (k + 1)) s = .next t ∧ t.now = at_ k ∧ t.seq = 0x07 ∧
      t.out = s.sched.entry (BitVec.ofNat 3 k) ∧ t.phase = BitVec.ofNat 3 (k + 1) ∧ t.restartReq = false ∧
      t.sched = s.sched ∧ t.snap = s.snap ∧ (1 ≤ k → t.wdRun = true ∧ t.wdCnt = 0)

/-- R153: with the timer stopped and SEL never at the awaited level, WAITSEL only lets time pass: no restart, no read,
no output write, for as long as the level stays away. -/
def Obligations.IdleWaitOnlyPassesTime : Prop :=
  ∀ (s : State) (n : Nat), s.csLoad = [] → s.seq = 0x07 → s.wdRun = false → s.restartReq = false →
    s.dlyBusy = false → (∀ k, k < n → s.env.selAt (s.now + k) ≠ awaited s.par.selActive s.phase) →
    steps n s = .next { s with now := s.now + n }

/-- R108: "With non-zero delay draws every interval above is lengthened by its draw and none is shortened". The draws
are within the bound; each interval of a read is at least as long as the table's and at most the bound longer; with the
bound 0 the instants are the table's. -/
def Obligations.OverrunsOnlyLengthenARead : Prop :=
  ∀ (s : State) (u k : Nat),
    let slack := s.par.dlySlackTicks
    let fall := clkFallAt u (drawn s)
    let rise := clkRiseAt u (drawn s)
    (∀ j, drawn s j ≤ slack) ∧
    (12 * u ≤ fall 0 ∧ fall 0 ≤ 12 * u + slack) ∧
    (fall k + 6 * u ≤ rise k ∧ rise k ≤ fall k + 6 * u + slack) ∧
    (rise k + 6 * u ≤ fall (k + 1) ∧ fall (k + 1) ≤ rise k + 6 * u + slack) ∧
    (12 * u + 12 * k * u ≤ fall k ∧ fall k ≤ 12 * u + 12 * k * u + (2 * k + 1) * slack) ∧
    (slack = 0 → fall k = 12 * u + 12 * k * u ∧ rise k = 18 * u + 12 * k * u ∧ fall 16 = 204 * u)
end

