-- ==== Sys2Proof/Laws/State.lean ====
section
/-! SUPPORT. One lemma per field per update of the state: what each named update writes and what it leaves. -/

namespace Sys2Proof.Machine

open Sys2Proof

variable (s : State)

/-! `goto`: SEQ only. -/

@[simp] theorem State.goto_seq (a : Addr) : (s.goto a).seq = a := rfl
@[simp] theorem State.goto_lr (a : Addr) : (s.goto a).lr = s.lr := rfl
@[simp] theorem State.goto_shreg (a : Addr) : (s.goto a).shreg = s.shreg := rfl
@[simp] theorem State.goto_bitcnt (a : Addr) : (s.goto a).bitcnt = s.bitcnt := rfl
@[simp] theorem State.goto_snap (a : Addr) : (s.goto a).snap = s.snap := rfl
@[simp] theorem State.goto_layout (a : Addr) : (s.goto a).layout = s.layout := rfl
@[simp] theorem State.goto_sched (a : Addr) : (s.goto a).sched = s.sched := rfl
@[simp] theorem State.goto_phase (a : Addr) : (s.goto a).phase = s.phase := rfl
@[simp] theorem State.goto_wdRun (a : Addr) : (s.goto a).wdRun = s.wdRun := rfl
@[simp] theorem State.goto_wdCnt (a : Addr) : (s.goto a).wdCnt = s.wdCnt := rfl
@[simp] theorem State.goto_restartReq (a : Addr) : (s.goto a).restartReq = s.restartReq := rfl
@[simp] theorem State.goto_dlyRem (a : Addr) : (s.goto a).dlyRem = s.dlyRem := rfl
@[simp] theorem State.goto_dlyBusy (a : Addr) : (s.goto a).dlyBusy = s.dlyBusy := rfl
@[simp] theorem State.goto_out (a : Addr) : (s.goto a).out = s.out := rfl
@[simp] theorem State.goto_latch (a : Addr) : (s.goto a).latch = s.latch := rfl
@[simp] theorem State.goto_clk (a : Addr) : (s.goto a).clk = s.clk := rfl
@[simp] theorem State.goto_now (a : Addr) : (s.goto a).now = s.now := rfl
@[simp] theorem State.goto_par (a : Addr) : (s.goto a).par = s.par := rfl
@[simp] theorem State.goto_env (a : Addr) : (s.goto a).env = s.env := rfl
@[simp] theorem State.goto_drawIx (a : Addr) : (s.goto a).drawIx = s.drawIx := rfl
@[simp] theorem State.goto_csLoad (a : Addr) : (s.goto a).csLoad = s.csLoad := rfl


/-! `stopTimer`: WD_RUN and RESTART_REQ only. -/

@[simp] theorem State.stopTimer_seq : s.stopTimer.seq = s.seq := rfl
@[simp] theorem State.stopTimer_lr : s.stopTimer.lr = s.lr := rfl
@[simp] theorem State.stopTimer_shreg : s.stopTimer.shreg = s.shreg := rfl
@[simp] theorem State.stopTimer_bitcnt : s.stopTimer.bitcnt = s.bitcnt := rfl
@[simp] theorem State.stopTimer_snap : s.stopTimer.snap = s.snap := rfl
@[simp] theorem State.stopTimer_layout : s.stopTimer.layout = s.layout := rfl
@[simp] theorem State.stopTimer_sched : s.stopTimer.sched = s.sched := rfl
@[simp] theorem State.stopTimer_phase : s.stopTimer.phase = s.phase := rfl
@[simp] theorem State.stopTimer_wdRun : s.stopTimer.wdRun = false := rfl
@[simp] theorem State.stopTimer_wdCnt : s.stopTimer.wdCnt = s.wdCnt := rfl
@[simp] theorem State.stopTimer_restartReq : s.stopTimer.restartReq = false := rfl
@[simp] theorem State.stopTimer_dlyRem : s.stopTimer.dlyRem = s.dlyRem := rfl
@[simp] theorem State.stopTimer_dlyBusy : s.stopTimer.dlyBusy = s.dlyBusy := rfl
@[simp] theorem State.stopTimer_out : s.stopTimer.out = s.out := rfl
@[simp] theorem State.stopTimer_latch : s.stopTimer.latch = s.latch := rfl
@[simp] theorem State.stopTimer_clk : s.stopTimer.clk = s.clk := rfl
@[simp] theorem State.stopTimer_now : s.stopTimer.now = s.now := rfl
@[simp] theorem State.stopTimer_par : s.stopTimer.par = s.par := rfl
@[simp] theorem State.stopTimer_env : s.stopTimer.env = s.env := rfl
@[simp] theorem State.stopTimer_drawIx : s.stopTimer.drawIx = s.drawIx := rfl
@[simp] theorem State.stopTimer_csLoad : s.stopTimer.csLoad = s.csLoad := rfl


/-! `startTimer`: WD_RUN and WD_CNT only. -/

@[simp] theorem State.startTimer_seq : s.startTimer.seq = s.seq := rfl
@[simp] theorem State.startTimer_lr : s.startTimer.lr = s.lr := rfl
@[simp] theorem State.startTimer_shreg : s.startTimer.shreg = s.shreg := rfl
@[simp] theorem State.startTimer_bitcnt : s.startTimer.bitcnt = s.bitcnt := rfl
@[simp] theorem State.startTimer_snap : s.startTimer.snap = s.snap := rfl
@[simp] theorem State.startTimer_layout : s.startTimer.layout = s.layout := rfl
@[simp] theorem State.startTimer_sched : s.startTimer.sched = s.sched := rfl
@[simp] theorem State.startTimer_phase : s.startTimer.phase = s.phase := rfl
@[simp] theorem State.startTimer_wdRun : s.startTimer.wdRun = true := rfl
@[simp] theorem State.startTimer_wdCnt : s.startTimer.wdCnt = 0 := rfl
@[simp] theorem State.startTimer_restartReq : s.startTimer.restartReq = s.restartReq := rfl
@[simp] theorem State.startTimer_dlyRem : s.startTimer.dlyRem = s.dlyRem := rfl
@[simp] theorem State.startTimer_dlyBusy : s.startTimer.dlyBusy = s.dlyBusy := rfl
@[simp] theorem State.startTimer_out : s.startTimer.out = s.out := rfl
@[simp] theorem State.startTimer_latch : s.startTimer.latch = s.latch := rfl
@[simp] theorem State.startTimer_clk : s.startTimer.clk = s.clk := rfl
@[simp] theorem State.startTimer_now : s.startTimer.now = s.now := rfl
@[simp] theorem State.startTimer_par : s.startTimer.par = s.par := rfl
@[simp] theorem State.startTimer_env : s.startTimer.env = s.env := rfl
@[simp] theorem State.startTimer_drawIx : s.startTimer.drawIx = s.drawIx := rfl
@[simp] theorem State.startTimer_csLoad : s.startTimer.csLoad = s.csLoad := rfl


/-! `takeRestart`: SEQ and RESTART_REQ only. -/

@[simp] theorem State.takeRestart_seq : s.takeRestart.seq = Config.restartVec := rfl
@[simp] theorem State.takeRestart_lr : s.takeRestart.lr = s.lr := rfl
@[simp] theorem State.takeRestart_shreg : s.takeRestart.shreg = s.shreg := rfl
@[simp] theorem State.takeRestart_bitcnt : s.takeRestart.bitcnt = s.bitcnt := rfl
@[simp] theorem State.takeRestart_snap : s.takeRestart.snap = s.snap := rfl
@[simp] theorem State.takeRestart_layout : s.takeRestart.layout = s.layout := rfl
@[simp] theorem State.takeRestart_sched : s.takeRestart.sched = s.sched := rfl
@[simp] theorem State.takeRestart_phase : s.takeRestart.phase = s.phase := rfl
@[simp] theorem State.takeRestart_wdRun : s.takeRestart.wdRun = s.wdRun := rfl
@[simp] theorem State.takeRestart_wdCnt : s.takeRestart.wdCnt = s.wdCnt := rfl
@[simp] theorem State.takeRestart_restartReq : s.takeRestart.restartReq = false := rfl
@[simp] theorem State.takeRestart_dlyRem : s.takeRestart.dlyRem = s.dlyRem := rfl
@[simp] theorem State.takeRestart_dlyBusy : s.takeRestart.dlyBusy = s.dlyBusy := rfl
@[simp] theorem State.takeRestart_out : s.takeRestart.out = s.out := rfl
@[simp] theorem State.takeRestart_latch : s.takeRestart.latch = s.latch := rfl
@[simp] theorem State.takeRestart_clk : s.takeRestart.clk = s.clk := rfl
@[simp] theorem State.takeRestart_now : s.takeRestart.now = s.now := rfl
@[simp] theorem State.takeRestart_par : s.takeRestart.par = s.par := rfl
@[simp] theorem State.takeRestart_env : s.takeRestart.env = s.env := rfl
@[simp] theorem State.takeRestart_drawIx : s.takeRestart.drawIx = s.drawIx := rfl
@[simp] theorem State.takeRestart_csLoad : s.takeRestart.csLoad = s.csLoad := rfl


/-! `loadDelay`: DLY_REM, DLY_BUSY and the draw counter only. -/

@[simp] theorem State.loadDelay_seq (us : BitVec 8) : (s.loadDelay us).seq = s.seq := rfl
@[simp] theorem State.loadDelay_lr (us : BitVec 8) : (s.loadDelay us).lr = s.lr := rfl
@[simp] theorem State.loadDelay_shreg (us : BitVec 8) : (s.loadDelay us).shreg = s.shreg := rfl
@[simp] theorem State.loadDelay_bitcnt (us : BitVec 8) : (s.loadDelay us).bitcnt = s.bitcnt := rfl
@[simp] theorem State.loadDelay_snap (us : BitVec 8) : (s.loadDelay us).snap = s.snap := rfl
@[simp] theorem State.loadDelay_layout (us : BitVec 8) : (s.loadDelay us).layout = s.layout := rfl
@[simp] theorem State.loadDelay_sched (us : BitVec 8) : (s.loadDelay us).sched = s.sched := rfl
@[simp] theorem State.loadDelay_phase (us : BitVec 8) : (s.loadDelay us).phase = s.phase := rfl
@[simp] theorem State.loadDelay_wdRun (us : BitVec 8) : (s.loadDelay us).wdRun = s.wdRun := rfl
@[simp] theorem State.loadDelay_wdCnt (us : BitVec 8) : (s.loadDelay us).wdCnt = s.wdCnt := rfl
@[simp] theorem State.loadDelay_restartReq (us : BitVec 8) : (s.loadDelay us).restartReq = s.restartReq := rfl
@[simp] theorem State.loadDelay_dlyRem (us : BitVec 8) : (s.loadDelay us).dlyRem = s.delayTicks us := rfl
@[simp] theorem State.loadDelay_dlyBusy (us : BitVec 8) : (s.loadDelay us).dlyBusy = true := rfl
@[simp] theorem State.loadDelay_out (us : BitVec 8) : (s.loadDelay us).out = s.out := rfl
@[simp] theorem State.loadDelay_latch (us : BitVec 8) : (s.loadDelay us).latch = s.latch := rfl
@[simp] theorem State.loadDelay_clk (us : BitVec 8) : (s.loadDelay us).clk = s.clk := rfl
@[simp] theorem State.loadDelay_now (us : BitVec 8) : (s.loadDelay us).now = s.now := rfl
@[simp] theorem State.loadDelay_par (us : BitVec 8) : (s.loadDelay us).par = s.par := rfl
@[simp] theorem State.loadDelay_env (us : BitVec 8) : (s.loadDelay us).env = s.env := rfl
@[simp] theorem State.loadDelay_drawIx (us : BitVec 8) : (s.loadDelay us).drawIx = s.drawIx + 1 := rfl
@[simp] theorem State.loadDelay_csLoad (us : BitVec 8) : (s.loadDelay us).csLoad = s.csLoad := rfl


/-! `storeWord`: the control store only. -/

@[simp] theorem State.storeWord_seq (a : Addr) (w : Word) : (s.storeWord a w).seq = s.seq := rfl
@[simp] theorem State.storeWord_lr (a : Addr) (w : Word) : (s.storeWord a w).lr = s.lr := rfl
@[simp] theorem State.storeWord_shreg (a : Addr) (w : Word) : (s.storeWord a w).shreg = s.shreg := rfl
@[simp] theorem State.storeWord_bitcnt (a : Addr) (w : Word) : (s.storeWord a w).bitcnt = s.bitcnt := rfl
@[simp] theorem State.storeWord_snap (a : Addr) (w : Word) : (s.storeWord a w).snap = s.snap := rfl
@[simp] theorem State.storeWord_layout (a : Addr) (w : Word) : (s.storeWord a w).layout = s.layout := rfl
@[simp] theorem State.storeWord_sched (a : Addr) (w : Word) : (s.storeWord a w).sched = s.sched := rfl
@[simp] theorem State.storeWord_phase (a : Addr) (w : Word) : (s.storeWord a w).phase = s.phase := rfl
@[simp] theorem State.storeWord_wdRun (a : Addr) (w : Word) : (s.storeWord a w).wdRun = s.wdRun := rfl
@[simp] theorem State.storeWord_wdCnt (a : Addr) (w : Word) : (s.storeWord a w).wdCnt = s.wdCnt := rfl
@[simp] theorem State.storeWord_restartReq (a : Addr) (w : Word) : (s.storeWord a w).restartReq = s.restartReq := rfl
@[simp] theorem State.storeWord_dlyRem (a : Addr) (w : Word) : (s.storeWord a w).dlyRem = s.dlyRem := rfl
@[simp] theorem State.storeWord_dlyBusy (a : Addr) (w : Word) : (s.storeWord a w).dlyBusy = s.dlyBusy := rfl
@[simp] theorem State.storeWord_out (a : Addr) (w : Word) : (s.storeWord a w).out = s.out := rfl
@[simp] theorem State.storeWord_latch (a : Addr) (w : Word) : (s.storeWord a w).latch = s.latch := rfl
@[simp] theorem State.storeWord_clk (a : Addr) (w : Word) : (s.storeWord a w).clk = s.clk := rfl
@[simp] theorem State.storeWord_now (a : Addr) (w : Word) : (s.storeWord a w).now = s.now := rfl
@[simp] theorem State.storeWord_par (a : Addr) (w : Word) : (s.storeWord a w).par = s.par := rfl
@[simp] theorem State.storeWord_env (a : Addr) (w : Word) : (s.storeWord a w).env = s.env := rfl
@[simp] theorem State.storeWord_drawIx (a : Addr) (w : Word) : (s.storeWord a w).drawIx = s.drawIx := rfl
@[simp] theorem State.storeWord_csLoad (a : Addr) (w : Word) : (s.storeWord a w).csLoad = s.csLoad.write a.toNat w := rfl


end Sys2Proof.Machine
end

