-- ==== Sys2Proof/Laws/Ops.lean ====
section
/-! SUPPORT. For each shared operation, once, everything it can do. -/

namespace Sys2Proof.Machine

open Sys2Proof

/-- `advance` below the last address. -/
theorem State.advance_eq_next {s : State} (h : s.seq ≠ 0x1F) :
    s.advance = .next { s with seq := s.seq + 1 } := if_neg h

/-- `advance` at the last address. -/
theorem State.advance_eq_refused {s : State} (h : s.seq = 0x1F) :
    s.advance = .refused .seqPastEnd := if_pos h

/-- If `advance` answers a next state, SEQ has moved by one and nothing else has changed. -/
theorem State.advance_inv {s t : State} (h : s.advance = .next t) :
    s.seq ≠ Config.lastAddr ∧ t = s.goto (s.seq + 1) := by
  unfold State.advance at h
  split at h
  · cases h
  · rename_i hne
    exact ⟨hne, by cases h; rfl⟩

/-- `driveHostLine` on each line: it answers a next state only for the two host lines. -/
theorem State.driveHostLine_inv {s t : State} {p : Pin} {v : Level} (h : s.driveHostLine p v = .next t) :
    s.seq ≠ Config.lastAddr ∧
      ((p = .latch ∧ t = { s with latch := v, seq := s.seq + 1 }) ∨
       (p = .clk ∧ t = { s with clk := v, seq := s.seq + 1 })) := by
  cases p <;> simp only [State.driveHostLine] at h
  case latch => obtain ⟨h1, rfl⟩ := advance_inv h; exact ⟨h1, .inl ⟨rfl, rfl⟩⟩
  case clk => obtain ⟨h1, rfl⟩ := advance_inv h; exact ⟨h1, .inr ⟨rfl, rfl⟩⟩
  all_goals cases h

/-- If `rebuild` answers a next state, LAYOUT names a layout and SCHED is `build` of the word under it. -/
theorem State.rebuild_inv {s t : State} {w : Word} (h : s.rebuild w = .next t) :
    s.seq ≠ Config.lastAddr ∧ ∃ lay, layoutOfCode s.layout = some lay ∧
      t = { s with sched := build s.par.btnPos w lay, seq := s.seq + 1 } := by
  unfold State.rebuild at h
  split at h
  · rename_i lay hl
    obtain ⟨h1, rfl⟩ := advance_inv h
    exact ⟨h1, lay, hl, rfl⟩
  · cases h

/-- What one count of the timer does: only WD_CNT and RESTART_REQ may change, as the WDT rule says. -/
theorem State.countTimer_spec (s : State) :
    (s.wdRun = false ∧ s.countTimer = s) ∨
    (s.wdRun = true ∧ s.wdCnt + 1 = s.par.wdTimeoutTicks ∧
      s.countTimer = { s with wdCnt := 0, restartReq := true }) ∨
    (s.wdRun = true ∧ s.wdCnt + 1 ≠ s.par.wdTimeoutTicks ∧ s.countTimer = { s with wdCnt := s.wdCnt + 1 }) := by
  unfold State.countTimer
  cases h : s.wdRun <;> simp
  by_cases h2 : s.wdCnt + 1 = s.par.wdTimeoutTicks <;> simp [h2]

/-- What one tick does to a delay: only DLY_REM may change. -/
theorem State.countDelay_spec (s : State) :
    (s.dlyBusy = true ∧ 0 < s.dlyRem ∧ s.countDelay = { s with dlyRem := s.dlyRem - 1 }) ∨
    ((s.dlyBusy = false ∨ s.dlyRem = 0) ∧ s.countDelay = s) := by
  unfold State.countDelay
  by_cases h : s.dlyBusy = true ∧ 0 < s.dlyRem
  · exact .inl ⟨h.1, h.2, by simp [h.1, h.2]⟩
  · refine .inr ⟨?_, by simp_all⟩
    cases hb : s.dlyBusy
    · exact .inl rfl
    · exact .inr (by simpa [hb] using h)

/-- What a tick leaves unchanged. -/
theorem State.tick_frame (s : State) :
    s.tick = { s with now := s.now + 1, wdCnt := s.tick.wdCnt, restartReq := s.tick.restartReq,
                      dlyRem := s.tick.dlyRem } := by
  unfold State.tick
  rcases State.countTimer_spec { s with now := s.now + 1 } with ⟨_, h⟩ | ⟨_, _, h⟩ | ⟨_, _, h⟩ <;> rw [h] <;>
    unfold State.countDelay <;> split <;> rfl

@[simp] theorem State.tick_now (s : State) : s.tick.now = s.now + 1 := by rw [State.tick_frame]
@[simp] theorem State.tick_seq (s : State) : s.tick.seq = s.seq := by rw [State.tick_frame]
@[simp] theorem State.tick_lr (s : State) : s.tick.lr = s.lr := by rw [State.tick_frame]
@[simp] theorem State.tick_shreg (s : State) : s.tick.shreg = s.shreg := by rw [State.tick_frame]
@[simp] theorem State.tick_bitcnt (s : State) : s.tick.bitcnt = s.bitcnt := by rw [State.tick_frame]
@[simp] theorem State.tick_snap (s : State) : s.tick.snap = s.snap := by rw [State.tick_frame]
@[simp] theorem State.tick_layout (s : State) : s.tick.layout = s.layout := by rw [State.tick_frame]
@[simp] theorem State.tick_sched (s : State) : s.tick.sched = s.sched := by rw [State.tick_frame]
@[simp] theorem State.tick_phase (s : State) : s.tick.phase = s.phase := by rw [State.tick_frame]
@[simp] theorem State.tick_wdRun (s : State) : s.tick.wdRun = s.wdRun := by rw [State.tick_frame]
@[simp] theorem State.tick_dlyBusy (s : State) : s.tick.dlyBusy = s.dlyBusy := by rw [State.tick_frame]
@[simp] theorem State.tick_out (s : State) : s.tick.out = s.out := by rw [State.tick_frame]
@[simp] theorem State.tick_latch (s : State) : s.tick.latch = s.latch := by rw [State.tick_frame]
@[simp] theorem State.tick_clk (s : State) : s.tick.clk = s.clk := by rw [State.tick_frame]
@[simp] theorem State.tick_par (s : State) : s.tick.par = s.par := by rw [State.tick_frame]
@[simp] theorem State.tick_env (s : State) : s.tick.env = s.env := by rw [State.tick_frame]
@[simp] theorem State.tick_drawIx (s : State) : s.tick.drawIx = s.drawIx := by rw [State.tick_frame]
@[simp] theorem State.tick_csLoad (s : State) : s.tick.csLoad = s.csLoad := by rw [State.tick_frame]

/-- The phase advance wraps as its 3 bits do. -/
@[simp] theorem nextPhase_eq_add_one (n : Phase) : nextPhase n = n + 1 := by
  revert n
  decide

/-- The phase indices are the numbers below `N_PHASES`. -/
theorem phase_lt_nPhases (n : Phase) : n.toNat < Config.nPhases := n.isLt

/-- The count of a sample: one more where it fits, an open value at 31. -/
theorem State.countSample_spec (s : State) : ∃ b d, (s.bitcnt ≠ 31 → b = s.bitcnt + 1 ∧ d = s.drawIx) ∧
    s.countSample = { s with bitcnt := b, drawIx := d } := by
  unfold State.countSample
  split
  · rename_i h
    exact ⟨_, _, fun h2 => absurd h h2, rfl⟩
  · exact ⟨_, _, fun _ => ⟨rfl, rfl⟩, rfl⟩

/-- The overrun of a delay is within its bound. -/
theorem State.overrun_le (s : State) : s.overrun ≤ s.par.dlySlackTicks := by
  unfold State.overrun
  split
  · omega
  · exact Nat.le_of_lt_succ (Nat.mod_lt _ (Nat.succ_pos _))

/-- The codes of the three layouts, and only they, name a layout. -/
theorem layoutOfCode_eq_some {c : BitVec 2} {lay : Layout} :
    layoutOfCode c = some lay ↔ c = codeOfLayout lay := by
  cases lay <;> simp only [layoutOfCode, codeOfLayout] <;> revert c <;> decide

/-- LAYOUT names a layout unless it is the reserved code. -/
theorem layoutOfCode_isSome {c : BitVec 2} (h : c ≠ 3) : ∃ lay, layoutOfCode c = some lay := by
  rw [← Option.isSome_iff_exists]
  revert c
  decide

end Sys2Proof.Machine
end

