-- ==== Sys2Proof/Laws/Exec.lean ====
section
/-! SUPPORT. What each operation can do, once for all nineteen, and the step at an address of the fixed control
store. -/

namespace Sys2Proof.Machine

open Sys2Proof

/-- The codes of the three layouts are legal. -/
theorem codeOfLayout_ne_three (lay : Layout) : codeOfLayout lay ≠ 3 := by cases lay <;> decide

/-- With the fixed control store the step at an address is the execution of the operation listed there. -/
theorem step_at_listed {s : State} (h : s.csLoad = []) {a : Addr} (ha : s.seq = a) {i : Instr}
    (hr : (romWord a.toNat).map decode = some (.ok i)) : step s = exec i s := by
  have hf : s.fetch = romWord a.toNat := by simp [State.fetch, Memory.read, Memory.find, h, ha]
  unfold step
  rw [hf]
  cases hw : romWord a.toNat with
  | none => simp [hw] at hr
  | some w =>
    simp only [hw, Option.map_some, Option.some.injEq] at hr
    simp [hr]

/-- If an operation answers a next state, it is one of these. -/
theorem exec_inv {i : Instr} {s t : State} (h : exec i s = .next t) :
  match i with
  | .seth p => (p = .latch ∧ t = { s with latch := true, seq := s.seq + 1 }) ∨
      (p = .clk ∧ t = { s with clk := true, seq := s.seq + 1 })
  | .setl p => (p = .latch ∧ t = { s with latch := false, seq := s.seq + 1 }) ∨
      (p = .clk ∧ t = { s with clk := false, seq := s.seq + 1 })
  | .dly us => (s.dlyBusy = true ∧ s.dlyRem = 0 ∧ t = { s with dlyBusy := false, seq := s.seq + 1 }) ∨
      (s.dlyBusy = true ∧ 0 < s.dlyRem ∧ t = s.tick) ∨ (s.dlyBusy = false ∧ t = s.loadDelay us)
  | .clrc => t = { s with bitcnt := 0, seq := s.seq + 1 }
  | .smpl => ∃ v b d, (s.bitcnt ≠ 31 → b = s.bitcnt + 1 ∧ d = s.drawIx) ∧
      t = { s with shreg := v, bitcnt := b, drawIx := d, seq := s.seq + 1 }
  | .loop a => (s.bitcnt = 16 ∧ t = { s with seq := s.seq + 1 }) ∨ (s.bitcnt ≠ 16 ∧ t = { s with seq := a })
  | .capt => t = { s with snap := s.shreg, seq := s.seq + 1 }
  | .lsel => ∃ lay, t = { s with layout := codeOfLayout lay, seq := s.seq + 1 }
  | .seed => ∃ lay, layoutOfCode s.layout = some lay ∧
      t = { s with sched := build s.par.btnPos 0xFFFF lay, seq := s.seq + 1 }
  | .build => ∃ lay, layoutOfCode s.layout = some lay ∧
      t = { s with sched := build s.par.btnPos s.snap lay, seq := s.seq + 1 }
  | .wdstop => t = { s with wdRun := false, restartReq := false, seq := s.seq + 1 }
  | .phrst => t = { s with phase := 0, seq := s.seq + 1 }
  | .waitsel => (s.restartReq = true ∧ t = { s with restartReq := false, seq := 3 }) ∨
      (s.restartReq = false ∧ s.env.selAt s.now = awaited s.par.selActive s.phase ∧
      t = { s with seq := s.seq + 1 }) ∨
      (s.restartReq = false ∧ s.env.selAt s.now ≠ awaited s.par.selActive s.phase ∧ t = s.tick)
  | .drive => t = { s with out := s.sched.entry s.phase, seq := s.seq + 1 }
  | .wdarm => (s.phase = 0 ∧ t = { s with seq := s.seq + 1 }) ∨
      (s.phase ≠ 0 ∧ t = { s with wdCnt := 0, wdRun := true, seq := s.seq + 1 })
  | .phinc => t = { s with phase := s.phase + 1, seq := s.seq + 1 }
  | .jmp a => t = { s with seq := a }
  | .call a => t = { s with lr := s.seq + 1, seq := a }
  | .ret => t = { s with seq := s.lr } := by
  cases i
  case seth p => exact (State.driveHostLine_inv h).2
  case setl p => exact (State.driveHostLine_inv h).2
  case dly us =>
    simp only [exec, execDly] at h
    split at h
    · rename_i hb
      split at h
      · rename_i hr; exact .inl ⟨hb, hr, (State.advance_inv h).2⟩
      · rename_i hr; cases h; exact .inr (.inl ⟨hb, by omega, rfl⟩)
    · rename_i hb; cases h; exact .inr (.inr ⟨by simpa using hb, rfl⟩)
  case clrc => exact (State.advance_inv h).2
  case smpl =>
    simp only [exec, execSmpl] at h
    obtain ⟨b, d, hbd, hc⟩ := State.countSample_spec { s with shreg := shiftIn s.shreg (s.pin .data) }
    rw [hc] at h
    exact ⟨_, b, d, hbd, (State.advance_inv h).2⟩
  case loop a =>
    simp only [exec, execLoop] at h
    split at h
    · rename_i hb; exact .inl ⟨hb, (State.advance_inv h).2⟩
    · rename_i hb; cases h; exact .inr ⟨hb, rfl⟩
  case capt => exact (State.advance_inv h).2
  case lsel => exact ⟨_, (State.advance_inv h).2⟩
  case seed => exact (State.rebuild_inv h).2
  case build => exact (State.rebuild_inv h).2
  case wdstop => exact (State.advance_inv h).2
  case phrst => exact (State.advance_inv h).2
  case waitsel =>
    simp only [exec, execWaitsel] at h
    split at h
    · rename_i hr; cases h; exact .inl ⟨hr, rfl⟩
    · rename_i hr
      split at h
      · rename_i ha; exact .inr (.inl ⟨by simpa using hr, ha, (State.advance_inv h).2⟩)
      · rename_i ha; cases h; exact .inr (.inr ⟨by simpa using hr, ha, rfl⟩)
  case drive => exact (State.advance_inv h).2
  case wdarm =>
    simp only [exec, execWdarm] at h
    obtain ⟨_, h⟩ := State.advance_inv h
    by_cases hp : s.phase = 0
    · rw [if_pos hp] at h; exact .inl ⟨hp, h⟩
    · rw [if_neg hp] at h; exact .inr ⟨hp, h⟩
  case phinc => rw [← nextPhase_eq_add_one s.phase]; exact (State.advance_inv h).2
  case jmp a => cases h; rfl
  case call a =>
    simp only [exec, execCall] at h
    split at h <;> cases h; rfl
  case ret => cases h; rfl

end Sys2Proof.Machine
end

