-- ==== Sys2Proof/Laws/Memory.lean ====
section
/-! SUPPORT. The control store as a sparse memory: reading after writing, and the canonical form. -/

namespace Sys2Proof.Machine

open Sys2Proof

theorem Memory.find_erase_self (m : Memory) (a : Nat) : (m.erase a).find a = none := by
  induction m with
  | nil => rfl
  | cons kw rest ih =>
    obtain ⟨k, w⟩ := kw
    by_cases h : k = a
    · simpa [Memory.erase, h] using ih
    · simpa [Memory.erase, h, Memory.find] using ih

theorem Memory.find_erase_other (m : Memory) {a b : Nat} (h : b ≠ a) : (m.erase a).find b = m.find b := by
  induction m with
  | nil => rfl
  | cons kw rest ih =>
    obtain ⟨k, w⟩ := kw
    by_cases hk : k = a
    · have : k ≠ b := fun e => h (e ▸ hk)
      simpa [Memory.erase, Memory.find, hk, Ne.symm h] using ih
    · by_cases hb : k = b
      · subst hb
        simp [Memory.erase, Memory.find, h]
      · simp [Memory.erase, Memory.find, hk, hb, ih]

theorem Memory.find_insert_self (m : Memory) (a : Nat) (v : Word) (h : m.find a = none) :
    (m.insert a v).find a = some v := by
  induction m with
  | nil => simp [Memory.insert, Memory.find]
  | cons kw rest ih =>
    obtain ⟨k, w⟩ := kw
    by_cases hk : k = a
    · simp [Memory.find, hk] at h
    · simp only [Memory.find, hk, if_false] at h
      by_cases hl : a < k <;> simp [Memory.insert, Memory.find, hl, hk, ih h]

theorem Memory.find_insert_other (m : Memory) {a b : Nat} (v : Word) (h : b ≠ a) :
    (m.insert a v).find b = m.find b := by
  induction m with
  | nil => simp [Memory.insert, Memory.find, Ne.symm h]
  | cons kw rest ih =>
    obtain ⟨k, w⟩ := kw
    by_cases hl : a < k <;> simp [Memory.insert, Memory.find, hl, Ne.symm h, ih]

/-- A read after a write to the same address gives the word written. -/
@[simp] theorem Memory.read_write_self (m : Memory) (a : Nat) (v : Word) : (m.write a v).read a = some v := by
  by_cases h : romWord a = some v
  · simp [Memory.write, Memory.read, h, find_erase_self]
  · simp [Memory.write, Memory.read, h, find_insert_self _ _ _ (find_erase_self m a)]

/-- A write leaves every other address alone. -/
theorem Memory.read_write_other (m : Memory) {a b : Nat} (v : Word) (h : b ≠ a) :
    (m.write a v).read b = m.read b := by
  by_cases hv : romWord a = some v
  · simp [Memory.write, Memory.read, hv, find_erase_other m h]
  · simp [Memory.write, Memory.read, hv, find_insert_other _ v h, find_erase_other m h]

theorem Memory.wfFrom_mono {m : Memory} {lo lo' : Nat} (h : lo' ≤ lo) (hm : Memory.wfFrom lo m = true) :
    Memory.wfFrom lo' m = true := by
  cases m with
  | nil => rfl
  | cons kw rest =>
    obtain ⟨k, w⟩ := kw
    simp only [Memory.wfFrom, Bool.and_eq_true, decide_eq_true_eq] at hm ⊢
    exact ⟨⟨⟨by omega, hm.1.1.2⟩, hm.1.2⟩, hm.2⟩

theorem Memory.wfFrom_erase {m : Memory} {lo : Nat} (a : Nat) (hm : Memory.wfFrom lo m = true) :
    Memory.wfFrom lo (m.erase a) = true := by
  induction m generalizing lo with
  | nil => rfl
  | cons kw rest ih =>
    obtain ⟨k, w⟩ := kw
    simp only [Memory.wfFrom, Bool.and_eq_true, decide_eq_true_eq] at hm
    by_cases hk : k = a
    · simpa [Memory.erase, hk] using wfFrom_mono (by omega : lo ≤ k + 1) (ih hm.2)
    · simp only [Memory.erase, hk, if_false, Memory.wfFrom, Bool.and_eq_true, decide_eq_true_eq]
      exact ⟨⟨⟨hm.1.1.1, hm.1.1.2⟩, hm.1.2⟩, ih hm.2⟩

theorem Memory.wfFrom_insert {m : Memory} {lo a : Nat} {v : Word} (hm : Memory.wfFrom lo m = true)
    (hlo : lo ≤ a) (ha : a < 32) (hv : romWord a ≠ some v) (hf : m.find a = none) :
    Memory.wfFrom lo (m.insert a v) = true := by
  induction m generalizing lo with
  | nil => simp [Memory.insert, Memory.wfFrom, hlo, ha, hv]
  | cons kw rest ih =>
    obtain ⟨k, w⟩ := kw
    simp only [Memory.wfFrom, Bool.and_eq_true, decide_eq_true_eq] at hm
    by_cases hk : k = a
    · simp [Memory.find, hk] at hf
    · simp only [Memory.find, hk, if_false] at hf
      by_cases hl : a < k
      · simp only [Memory.insert, hl, if_true, Memory.wfFrom, Bool.and_eq_true, decide_eq_true_eq]
        exact ⟨⟨⟨hlo, ha⟩, by simpa using hv⟩, ⟨⟨by omega, hm.1.1.2⟩, hm.1.2⟩, hm.2⟩
      · simp only [Memory.insert, hl, if_false, Memory.wfFrom, Bool.and_eq_true, decide_eq_true_eq]
        exact ⟨⟨⟨hm.1.1.1, hm.1.1.2⟩, hm.1.2⟩, ih hm.2 (by omega) hf⟩

/-- A write to one of the 32 addresses keeps the canonical form. -/
theorem Memory.write_wf {m : Memory} (a : Addr) (v : Word) (hm : m.wf = true) : (m.write a.toNat v).wf = true := by
  unfold Memory.write
  split
  · exact wfFrom_erase _ hm
  · rename_i h
    exact wfFrom_insert (wfFrom_erase _ hm) (Nat.zero_le _) (by have := a.isLt; omega) h (find_erase_self _ _)

/-- The only operation over the control store keeps its canonical form. -/
theorem State.storeWord_wf {s : State} (a : Addr) (w : Word) (h : s.csLoad.wf = true) :
    (s.storeWord a w).csLoad.wf = true := Memory.write_wf a w h

/-- Placing a word where the next step fetches keeps the canonical form. -/
theorem State.withFetchWord_wf {s : State} (nbits w : Nat) (h : s.csLoad.wf = true) :
    (s.withFetchWord nbits w).csLoad.wf = true := State.storeWord_wf _ _ h

/-- The control store of the machine after reset is in canonical form: nothing is listed. -/
theorem State.reset_csLoad_wf : State.reset.csLoad.wf = true := rfl

/-- The word placed is the word fetched. -/
@[simp] theorem State.fetch_storeWord_self (s : State) (w : Word) : (s.storeWord s.seq w).fetch = some w := by
  simp [State.fetch, State.storeWord]

end Sys2Proof.Machine
end

