-- ==== Sys2Proof/Laws/PerInstr.lean ====
section
/-! SUPPORT. A statement about every operation as syntax, one lemma per constructor: the two fields of its word are
its opcode and its operand byte (spec/30_encoding.md R86). -/

namespace Sys2Proof.Laws.WordFields

open Sys2Proof

theorem opcOf_wordOf (o a : BitVec 8) : opcOf (wordOf o a) = o := by
  apply BitVec.eq_of_getLsbD_eq
  intro i hi
  simp only [opcOf, wordOf, BitVec.getLsbD_extractLsb', BitVec.getLsbD_append]
  simp [hi]

theorem argOf_wordOf (o a : BitVec 8) : argOf (wordOf o a) = a := by
  apply BitVec.eq_of_getLsbD_eq
  intro i hi
  simp only [argOf, wordOf, BitVec.getLsbD_extractLsb', BitVec.getLsbD_append]
  simp [hi]

/-- The fields of the encoding of an operation. -/
def Statement (i : Instr) : Prop := opcOf (encode i) = i.opcode ∧ argOf (encode i) = i.argByte

theorem all (i : Instr) : Statement i := ⟨opcOf_wordOf _ _, argOf_wordOf _ _⟩

theorem seth (p : Pin) : Statement (.seth p) := all _
theorem setl (p : Pin) : Statement (.setl p) := all _
theorem dly (us : BitVec 8) : Statement (.dly us) := all _
theorem clrc : Statement .clrc := all _
theorem smpl : Statement .smpl := all _
theorem loop (a : Addr) : Statement (.loop a) := all _
theorem capt : Statement .capt := all _
theorem lsel : Statement .lsel := all _
theorem seed : Statement .seed := all _
theorem build : Statement .build := all _
theorem wdstop : Statement .wdstop := all _
theorem phrst : Statement .phrst := all _
theorem waitsel : Statement .waitsel := all _
theorem drive : Statement .drive := all _
theorem wdarm : Statement .wdarm := all _
theorem phinc : Statement .phinc := all _
theorem jmp (a : Addr) : Statement (.jmp a) := all _
theorem call (a : Addr) : Statement (.call a) := all _
theorem ret : Statement .ret := all _

end Sys2Proof.Laws.WordFields
end

