-- ==== Sys2Proof/Laws/Run.lean ====
section
/-! SUPPORT. Runs: their composition, and their agreement with the host's `Core.run`. -/

namespace Sys2Proof.Safety

open Sys2Proof Sys2Proof.Machine

@[simp] theorem steps_zero (s : State) : steps 0 s = .next s := rfl

/-- The first step of a run. -/
theorem steps_succ {s t : State} (n : Nat) (h : step s = .next t) : steps (n + 1) s = steps n t := by
  simp [steps, h]

@[simp] theorem steps_one (s : State) : steps 1 s = step s := by
  simp only [steps]
  split <;> simp_all

/-- Runs compose. -/
theorem steps_add {s t : State} {m : Nat} (n : Nat) (h : steps m s = .next t) :
    steps (m + n) s = steps n t := by
  induction m generalizing s with
  | zero => cases h; rw [Nat.zero_add]
  | succ m ih =>
    rw [Nat.succ_add]
    simp only [steps] at h ⊢
    split at h
    · exact ih h
    · cases h
    · cases h

/-- A run is the host's run of the machine. -/
theorem steps_eq_core_run (n : Nat) (s : State) : steps n s = Host.Core.run Sys2Proof.core n s := by
  induction n generalizing s with
  | zero => rfl
  | succ n ih =>
    unfold steps
    cases h : step s with
    | next t =>
      have hc : Sys2Proof.core.step s = .next t := h
      simp only [Host.Core.run, hc]
      exact ih t
    | fault r =>
      have hc : Sys2Proof.core.step s = .fault r := h
      simp only [Host.Core.run, hc]
      rfl
    | refused r =>
      have hc : Sys2Proof.core.step s = .refused r := h
      simp only [Host.Core.run, hc]
      rfl

/-- The next fall of CLK is the delay of the high half after the rise. -/
theorem clkFallAt_succ (u : Nat) (e : Nat → Nat) (k : Nat) :
    clkFallAt u e (k + 1) = clkRiseAt u e k + (6 * u + e (2 * k + 2)) := rfl

/-- Every rise of CLK comes no later than the falls after it. -/
theorem clkRiseAt_le_clkFallAt (u : Nat) (e : Nat → Nat) {j k : Nat} (h : j < k) :
    clkRiseAt u e j ≤ clkFallAt u e k := by
  induction k with
  | zero => omega
  | succ k ih =>
    rw [clkFallAt_succ]
    rcases Nat.lt_succ_iff_lt_or_eq.mp h with hj | rfl
    · have hfall : clkFallAt u e k ≤ clkRiseAt u e k := Nat.le_add_right _ _
      have := ih hj
      omega
    · omega

/-- A draw depends on the parameters and its number alone. -/
theorem drawn_congr {s t : State} {i j : Nat} (hp : t.par = s.par) (hn : t.drawIx + i = s.drawIx + j) :
    drawn t i = drawn s j := by
  simp only [drawn, State.overrun, hp, hn]

/-- What holds at the start and is kept by every step holds all along a run. -/
theorem reaches_induction {P : State → Prop} (hstep : ∀ s t, P s → step s = .next t → P t) {s t : State}
    (hs : P s) (h : Reaches s t) : P t := by
  obtain ⟨n, hn⟩ := h
  induction n generalizing s with
  | zero => cases hn; exact hs
  | succ n ih =>
    simp only [steps] at hn
    split at hn
    · rename_i u hu
      exact ih (hstep _ _ hs hu) hn
    · cases hn
    · cases hn

end Sys2Proof.Safety
end

