-- ==== Sys2Proof/Tests/Slice0.lean ====
section
/-! SUPPORT. Small tests, each on fixed values. The expected results are those of spec/95_test_vectors.md (the vector
is named in each docstring) or are read off the rule named there. After them, for every statement of
Certificates/Slice0/Obligations.lean with hypotheses, a concrete instance that meets them together. -/

open Sys2Proof Sys2Proof.Machine Sys2Proof.Safety

namespace Sys2Proof.Tests

/-! ## Helpers -/

/-- The next state, if there is one. -/
def nextOf : Result → Option State
  | .next t => some t
  | .fault _ => none
  | .refused _ => none

/-- Why a step is refused, if it is. -/
def refusalOf : Result → Option Refusal
  | .next _ => none
  | .fault _ => none
  | .refused r => some r

/-- One microsecond a tick, no delay overrun, timeout 2000, SEL_ACTIVE = 1, the default BTNPOS of R82. -/
def par0 : Params := ⟨1, 0, 2000, true, BtnPos.superFamicom⟩

/-- A draw of the unspecified registers. -/
def draw0 : ResetDraw where
  lr := 7
  shreg := 0x1234
  bitcnt := 5
  snap := 0xABCD
  layout := 2
  sched := ⟨1, 2, 3, 4, 5, 6, 7, 8⟩
  out := 0x15

/-- A state at an address, with SEL and DATA at fixed levels, otherwise as after power-on. -/
def at_ (a : Addr) (sel data : Level) : State :=
  { State.powerOn par0 ⟨[(0, sel)], [(0, data)]⟩ draw0 with seq := a }

/-- A next state of which a test holds is a state that exists. -/
theorem exists_of_any {r : Result} {P : State → Bool} (h : (nextOf r).any P = true) :
    ∃ t, r = .next t ∧ P t = true := by
  cases r with
  | next t => exact ⟨t, rfl, h⟩
  | fault r => cases h
  | refused r => cases h

/-! ## Well-formedness: what each check refuses (R87) -/

theorem test_seth_on_input_ill_formed : (Instr.seth .data).wellFormed = false := by decide
theorem test_setl_on_output_ill_formed : (Instr.setl .out0).wellFormed = false := by decide
theorem test_host_lines_are_the_two : ∀ p : Pin, (Instr.seth p).wellFormed = true ↔ p = .latch ∨ p = .clk := by
  intro p
  cases p <;> decide
theorem test_ill_formed_seth_refused :
    refusalOf (exec (.seth .sel) (at_ 0x10 false false)) = some (.reservedPin .sel) := by decide
theorem test_ill_formed_setl_refused :
    refusalOf (exec (.setl .out5) (at_ 0x10 false false)) = some (.reservedPin .out5) := by decide

/-! ## Decoding: the words of spec/95 2.1 and of the listing R164 -/

theorem test_decode_seth : decode 0x0108 = .ok (.seth .latch) ∧ decode 0x0109 = .ok (.seth .clk) := by decide
theorem test_decode_setl : decode 0x0208 = .ok (.setl .latch) ∧ decode 0x0209 = .ok (.setl .clk) := by decide
theorem test_decode_dly : decode 0x030C = .ok (.dly 12) ∧ decode 0x0300 = .ok (.dly 0) := by decide
theorem test_decode_clrc : decode 0x0400 = .ok .clrc := by decide
theorem test_decode_smpl : decode 0x0500 = .ok .smpl := by decide
theorem test_decode_loop : decode 0x0614 = .ok (.loop 0x14) := by decide
theorem test_decode_capt : decode 0x0700 = .ok .capt := by decide
theorem test_decode_lsel : decode 0x0800 = .ok .lsel := by decide
theorem test_decode_seed : decode 0x0900 = .ok .seed := by decide
theorem test_decode_build : decode 0x0A00 = .ok .build := by decide
theorem test_decode_wdstop : decode 0x0B00 = .ok .wdstop := by decide
theorem test_decode_phrst : decode 0x0C00 = .ok .phrst := by decide
theorem test_decode_waitsel : decode 0x0D00 = .ok .waitsel := by decide
theorem test_decode_drive : decode 0x0E00 = .ok .drive := by decide
theorem test_decode_wdarm : decode 0x0F00 = .ok .wdarm := by decide
theorem test_decode_phinc : decode 0x1000 = .ok .phinc := by decide
theorem test_decode_jmp : decode 0x1107 = .ok (.jmp 0x07) ∧ decode 0x111F = .ok (.jmp 0x1F) := by decide
theorem test_decode_call : decode 0x1210 = .ok (.call 0x10) := by decide
theorem test_decode_ret : decode 0x1300 = .ok .ret := by decide
/-- E10 to E12. -/
theorem test_decode_unused_opcode : decode 0x0000 = .reject .unusedOpcode ∧
    decode 0xFFFF = .reject .unusedOpcode ∧ decode 0x1400 = .reject .unusedOpcode := by decide
/-- E13, E19. -/
theorem test_decode_nonzero_arg : decode 0x0D01 = .reject .nonzeroArg ∧ decode 0x1301 = .reject .nonzeroArg := by
  decide
/-- E14, E15. -/
theorem test_decode_reserved_pin : decode 0x0107 = .reject .reservedPin ∧ decode 0x0200 = .reject .reservedPin := by
  decide
/-- E16. -/
theorem test_decode_reserved_target : decode 0x1127 = .reject .reservedTarget := by decide
/-- The table's word of LOOP, as the host numbers its bits. -/
theorem test_decode_table_word : decodeTableWord 16 0x0614 = some (.loop 0x14) ∧ decodeTableWord 16 0 = none := by
  decide

/-- The listing of R164 holds the timing constants of R9 and the vectors of R66. -/
theorem test_listing_constants :
    romWord 0x11 = some (encode (.dly Config.tLatchUs)) ∧ romWord 0x16 = some (encode (.dly Config.tHalfUs)) ∧
    romWord 0x0B = some (encode (.jmp Config.loopTop)) ∧ romWord 0x00 = some (encode (.call Config.hread)) := by
  decide

/-! ## HostReader (spec/95 2.2) -/

/-- H1. -/
theorem test_seth_latch : (nextOf (exec (.seth .latch) (at_ 0x10 false false))).map
    (fun t => (t.latch, t.clk, t.seq)) = some (true, true, 0x11) := by decide
/-- H2. -/
theorem test_seth_clk : (nextOf (exec (.seth .clk) (at_ 0x17 false false))).map
    (fun t => (t.latch, t.clk, t.seq)) = some (false, true, 0x18) := by decide
/-- H3. -/
theorem test_setl_clk : (nextOf (exec (.setl .clk) (at_ 0x14 false false))).map
    (fun t => (t.latch, t.clk, t.seq)) = some (false, false, 0x15) := by decide
/-- H4, the load. -/
theorem test_dly_load : (nextOf (exec (.dly 12) { at_ 0x11 false false with now := 100 })).map
    (fun t => (t.dlyRem, t.dlyBusy, t.seq, t.now)) = some (12, true, 0x11, 100) := by decide
/-- H5. -/
theorem test_dly_zero : (nextOf (steps 2 ((at_ 0x11 false false).withFetchWord 16 0x0300))).map
    (fun t => (t.dlyBusy, t.seq, t.now)) = some (false, 0x12, 0) := by decide
/-- H7. -/
theorem test_clrc : (nextOf (exec .clrc { at_ 0x13 false false with bitcnt := 16 })).map
    (fun t => (t.bitcnt, t.seq)) = some (0, 0x14) := by decide
/-- H8a. -/
theorem test_smpl_high : (nextOf (exec .smpl { at_ 0x15 false true with shreg := 0x8001, bitcnt := 3 })).map
    (fun t => (t.shreg, t.bitcnt)) = some (0x0003, 4) := by decide
/-- H8b. -/
theorem test_smpl_low : (nextOf (exec .smpl { at_ 0x15 false false with shreg := 0xFFFF, bitcnt := 15 })).map
    (fun t => (t.shreg, t.bitcnt)) = some (0xFFFE, 16) := by decide
/-- H8c. -/
theorem test_loop_taken : (nextOf (exec (.loop 0x14) { at_ 0x19 false false with bitcnt := 15 })).map
    (fun t => t.seq) = some 0x14 := by decide
/-- H8d. -/
theorem test_loop_done : (nextOf (exec (.loop 0x14) { at_ 0x19 false false with bitcnt := 16 })).map
    (fun t => t.seq) = some 0x1A := by decide
/-- H8f. -/
theorem test_capt : (nextOf (exec .capt { at_ 0x1A false false with shreg := 0xA79F, snap := 0xFFFF })).map
    (fun t => (t.snap, t.shreg)) = some (0xA79F, 0xA79F) := by decide

/-! ## LayoutSelector (spec/95 2.3) -/

/-- L1 to L7. -/
theorem test_lsel : [(0xFDFF : Word), 0xFEFF, 0xFFFF, 0xFCFF, 0x0000, 0xF3FF, 0xFFF0].map
    (fun w => (nextOf (exec .lsel { at_ 0x01 false false with snap := w })).map (fun t => t.layout)) =
    [some 1, some 0, some 2, some 1, some 1, some 2, some 2] := by decide
/-- L8: the rule goes through BTNPOS. -/
theorem test_lsel_other_positions :
    select { BtnPos.superFamicom with left := 8, right := 9 } 0xFDFF = .bc := by decide

/-! ## ScheduleBuilder (spec/95 2.4) -/

/-- B1, by SEED. -/
theorem test_seed : (nextOf (exec .seed (at_ 0x02 false false))).map (fun t => t.sched) =
    some ⟨0x3F, 0x33, 0x3F, 0x33, 0x3F, 0x30, 0x3F, 0x3F⟩ := by decide
/-- B17 under XC, by BUILD. -/
theorem test_build_xc : (nextOf (exec .build { at_ 0x06 false false with snap := 0xA79F })).map
    (fun t => t.sched) = some ⟨0x3E, 0x12, 0x3E, 0x12, 0x3E, 0x10, 0x38, 0x1F⟩ := by decide
/-- B17 under BC and AB. -/
theorem test_build_bc_ab :
    build BtnPos.superFamicom 0xA79F .bc = ⟨0x2E, 0x12, 0x2E, 0x12, 0x2E, 0x10, 0x29, 0x1F⟩ ∧
    build BtnPos.superFamicom 0xA79F .ab = ⟨0x3E, 0x02, 0x3E, 0x02, 0x3E, 0x00, 0x39, 0x0F⟩ := by decide

/-! ## EmulationEngine (spec/95 2.5) -/

/-- W19. -/
theorem test_wdstop : (nextOf (exec .wdstop { at_ 0x03 false false with
    wdRun := true, wdCnt := 500, restartReq := true })).map (fun t => (t.wdRun, t.wdCnt, t.restartReq)) =
    some (false, 500, false) := by decide
/-- W21. -/
theorem test_phrst : (nextOf (exec .phrst { at_ 0x04 false false with phase := 5 })).map
    (fun t => (t.phase, t.seq)) = some (0, 0x05) := by decide
/-- W6: the tie goes to the restart. -/
theorem test_waitsel_tie : (nextOf (exec .waitsel { at_ 0x07 false false with phase := 3, restartReq := true })).map
    (fun t => (t.restartReq, t.seq, t.now)) = some (false, 0x03, 0) := by decide
/-- W3 and W4. -/
theorem test_waitsel_level :
    (nextOf (exec .waitsel { at_ 0x07 true false with phase := 3 })).map (fun t => (t.seq, t.now)) = some (7, 1) ∧
    (nextOf (exec .waitsel { at_ 0x07 false false with phase := 3 })).map (fun t => (t.seq, t.now)) =
      some (8, 0) := by decide
/-- W9. -/
theorem test_drive : (nextOf (exec .drive { at_ 0x08 false false with
    phase := 5, sched := ⟨0x3F, 0x33, 0x3F, 0x33, 0x3F, 0x30, 0x3F, 0x3F⟩, out := 0x3F })).map
    (fun t => (t.out, t.pin .out3, t.pin .out4, t.phase)) = some (0x30, false, true, 5) := by decide
/-- W13. -/
theorem test_wdarm_phase_zero : (nextOf (exec .wdarm { at_ 0x09 false false with wdRun := true, wdCnt := 1234 })).map
    (fun t => (t.wdRun, t.wdCnt)) = some (true, 1234) := by decide
/-- W14. -/
theorem test_wdarm_phase_one : (nextOf (exec .wdarm { at_ 0x09 false false with phase := 1, wdCnt := 77 })).map
    (fun t => (t.wdRun, t.wdCnt)) = some (true, 0) := by decide
/-- W17. -/
theorem test_phinc_wraps : (nextOf (exec .phinc { at_ 0x0A false false with phase := 7 })).map
    (fun t => (t.phase, t.seq)) = some (0, 0x0B) := by decide

/-! ## The tick (spec/95 2.6) -/

/-- T1 to T4. -/
theorem test_tick_timer :
    ({ at_ 7 false false with wdCnt := 77 } : State).tick.wdCnt = 77 ∧
    ({ at_ 7 false false with wdRun := true, wdCnt := 0 } : State).tick.wdCnt = 1 ∧
    ({ at_ 7 false false with wdRun := true, wdCnt := 1998 } : State).tick.restartReq = false ∧
    ({ at_ 7 false false with wdRun := true, wdCnt := 1999 } : State).tick.wdCnt = 0 ∧
    ({ at_ 7 false false with wdRun := true, wdCnt := 1999 } : State).tick.restartReq = true := by decide
/-- T5. -/
theorem test_tick_delay :
    ({ at_ 0x11 false false with dlyBusy := true, dlyRem := 5 } : State).tick.dlyRem = 4 := by decide

/-! ## Sequencer control (spec/95 2.7) -/

/-- Q1. -/
theorem test_jmp : (nextOf (exec (.jmp 0x07) (at_ 0x0B false false))).map (fun t => (t.seq, t.lr)) = some (7, 7) := by
  decide
/-- Q2 and Q3. -/
theorem test_call :
    (nextOf (exec (.call 0x10) (at_ 0x00 false false))).map (fun t => (t.seq, t.lr)) = some (0x10, 0x01) ∧
    (nextOf (exec (.call 0x10) (at_ 0x05 false false))).map (fun t => (t.seq, t.lr)) = some (0x10, 0x06) := by decide
/-- Q5. -/
theorem test_ret : (nextOf (exec .ret { at_ 0x1B false false with lr := 0x06 })).map (fun t => (t.seq, t.lr)) =
    some (0x06, 0x06) := by decide
/-- Q6. -/
theorem test_fetch_undefined : refusalOf (step (at_ 0x0C false false)) = some (.undefinedAddress 0x0C) := by decide
/-- K4 (c). -/
theorem test_reserved_word_refused :
    refusalOf (step ((at_ 0x00 false false).withFetchWord 16 0x0107)) = some (.reservedWord 0x0107 .reservedPin) := by
  decide
/-- A placed word is what the next step runs, also where it is the word already there. -/
theorem test_placed_word : ((at_ 0x10 false false).withFetchWord 16 0x0108).csLoad = [] ∧
    ((at_ 0x10 false false).withFetchWord 16 0x1303).csLoad = [(0x10, 0x1303)] := by decide

/-! ## Reset (spec/95 2.8) -/

/-- Z1, on the machine's own reset. -/
theorem test_reset : (State.reset.seq, State.reset.phase, State.reset.wdRun, State.reset.restartReq,
    State.reset.dlyBusy, State.reset.latch, State.reset.clk) = (0, 0, false, false, false, false, true) := by decide
/-- The first step after reset is the CALL of the first read. -/
theorem test_reset_runs : (nextOf (step State.reset)).map (fun t => (t.seq, t.lr)) = some (0x10, 0x01) := by decide

/-! ## Witnesses: for each statement with hypotheses, an instance that meets them, clause by clause and at the ends
of the ranges -/

theorem witness_DecodeOfEncode : (Instr.loop 0x1F).wellFormed = true := by decide
theorem witness_EncodeOfDecode : decode 0x03FF = .ok (.dly 255) := by decide
theorem witness_ReservedWordsAreRejected : decode 0x061F = .ok (.loop 0x1F) ∧
    decode 0x0620 = .reject .reservedTarget ∧ decode 0x010A = .reject .reservedPin ∧
    decode 0x0401 = .reject .nonzeroArg := by decide
theorem witness_StepRunsDecodedInstruction :
    (at_ 0x11 false false).fetch = some 0x030C ∧ decode 0x030C = .ok (.dly 12) := by decide
theorem witness_UndefinedFetchRefuses :
    (at_ 0x0C false false).fetch = none ∧
    ((at_ 0x10 false false).withFetchWord 16 0x0107).fetch = some 0x0107 ∧ decode 0x0107 = .reject .reservedPin ∧
    (at_ 0x0F false false).csLoad = [] ∧ 0x0F ≤ (at_ 0x0F false false).seq.toNat ∧
    (at_ 0x1C false false).csLoad = [] ∧ 0x1C ≤ (at_ 0x1C false false).seq.toNat ∧
    0x1C ≤ (at_ 0x1F false false).seq.toNat := by decide
theorem witness_FixedStoreIsTheListing : (at_ 0x1B false false).csLoad = [] := by decide
theorem witness_PlacedWordRuns : (Instr.seth .clk).wellFormed = true ∧ 0x1F ≠ (at_ 0x10 false false).seq.toNat := by
  decide
theorem witness_SethDrivesLineHigh : (7 : BitVec 8) ≠ 8 ∧ (7 : BitVec 8) ≠ 9 ∧
    (at_ 0x1E false false).seq ≠ 0x1F := by decide
theorem witness_SetlDrivesLineLow : (10 : BitVec 8) ≠ 8 ∧ (10 : BitVec 8) ≠ 9 ∧
    (at_ 0x1E false false).seq ≠ 0x1F := by decide
theorem witness_DlyLoadsWaitsCompletes : (at_ 0x11 false false).dlyBusy = false ∧
    (let s : State := { at_ 0x11 false false with dlyBusy := true }
     s.dlyBusy = true ∧ s.dlyRem = 0 ∧ s.seq ≠ 0x1F) ∧
    (let s : State := { at_ 0x11 false false with dlyBusy := true, dlyRem := 1 }
     s.dlyBusy = true ∧ s.dlyRem ≠ 0) := by decide
theorem witness_DlyTakesItsTicks :
    let s := at_ 0x11 false false
    s.fetch = some 0x030C ∧ decode 0x030C = .ok (.dly 12) ∧ s.dlyBusy = false ∧ s.wdRun = false ∧ s.seq ≠ 0x1F := by
  decide
theorem witness_ClrcClearsCount : (at_ 0x1E false false).seq ≠ 0x1F := by decide
theorem witness_SmplShiftsDataIn : (at_ 0x1E false true).seq ≠ 0x1F ∧
    ({ at_ 0x15 false true with bitcnt := 30 } : State).bitcnt ≠ 31 := by decide
theorem witness_LoopUntilSixteen : ({ at_ 0x1F false false with bitcnt := 15 } : State).bitcnt ≠ 16 ∧
    (let s : State := { at_ 0x1E false false with bitcnt := 16 }
     s.bitcnt = 16 ∧ s.seq ≠ 0x1F) := by decide
theorem witness_CaptCopiesShiftRegister : (at_ 0x1E false false).seq ≠ 0x1F := by decide
theorem witness_LselChoosesLayout : (at_ 0x1E false false).seq ≠ 0x1F := by decide
theorem witness_SelectReadsTwoBits :
    (0xFDFF : Word).getLsbD (BtnPos.superFamicom.left.val) = (0x0100 : Word).getLsbD BtnPos.superFamicom.left.val ∧
    (0xFDFF : Word).getLsbD (BtnPos.superFamicom.right.val) = (0x0100 : Word).getLsbD BtnPos.superFamicom.right.val := by
  decide
/-- The default table is injective, as R9 requires. -/
theorem superFamicom_injective : Function.Injective BtnPos.superFamicom.at := by
  intro p q
  cases p <;> cases q <;> decide
theorem witness_ScheduleStructure :
    (∀ btn, pressed BtnPos.superFamicom 0xFF7F btn = true ↔ btn = .a) ∧
    (∀ btn, pressed BtnPos.superFamicom 0x7FFF btn = true ↔ btn = .b) ∧
    (∀ btn, lvl BtnPos.superFamicom 0xA79F btn = lvl BtnPos.superFamicom 0xA790 btn) := by
  refine ⟨?_, ?_, ?_⟩ <;> intro btn <;> cases btn <;> decide
theorem witness_SeedWritesIdleSchedule : (at_ 0x1E false false).layout ≠ 3 ∧ (at_ 0x1E false false).seq ≠ 0x1F := by
  decide
theorem witness_BuildWritesSchedule :
    (let s : State := { at_ 0x06 false false with layout := 0 }
     s.seq ≠ 0x1F ∧ s.layout = 0) ∧
    (let s : State := { at_ 0x06 false false with layout := 1 }
     s.seq ≠ 0x1F ∧ s.layout = 1) ∧
    (let s : State := { at_ 0x1E false false with layout := 2 }
     s.seq ≠ 0x1F ∧ s.layout = 2) := by decide
theorem witness_ReservedLayoutRefused :
    ({ at_ 0x06 false false with layout := 3 } : State).layout = 3 ∧
    exec .ret (at_ 0x1B false false) = .next (at_ 0x07 false false) ∧ (at_ 0x1B false false).layout ≠ 3 :=
  ⟨by decide, rfl, by decide⟩
theorem witness_WdstopStopsTimer : (at_ 0x1E false false).seq ≠ 0x1F := by decide
theorem witness_PhrstResetsPhase : (at_ 0x1E false false).seq ≠ 0x1F := by decide
theorem witness_WaitselTakesRestartOrLevel :
    ({ at_ 0x07 true false with restartReq := true } : State).restartReq = true ∧
    (let s := at_ 0x07 true false
     s.restartReq = false ∧ s.phase.toNat % 2 = 0 ∧ s.env.selAt s.now = s.par.selActive ∧ s.seq ≠ 0x1F) ∧
    (let s : State := { at_ 0x07 false false with phase := 7 }
     s.restartReq = false ∧ s.phase.toNat % 2 = 1 ∧ s.env.selAt s.now ≠ s.par.selActive ∧ s.seq ≠ 0x1F) ∧
    (let s : State := { at_ 0x07 false false with phase := 6 }
     s.restartReq = false ∧ s.phase.toNat % 2 = 0 ∧ s.env.selAt s.now ≠ s.par.selActive) ∧
    (let s : State := { at_ 0x07 true false with phase := 1 }
     s.restartReq = false ∧ s.phase.toNat % 2 = 1 ∧ s.env.selAt s.now = s.par.selActive) := by decide
theorem witness_DriveCopiesEntry : (at_ 0x1E false false).seq ≠ 0x1F := by decide
theorem witness_WdarmArmsAfterPhaseZero : (at_ 0x1E false false).seq ≠ 0x1F ∧ (at_ 0x1E false false).phase = 0 ∧
    ({ at_ 0x1E false false with phase := 7 } : State).phase ≠ 0 := by decide
theorem witness_PhincAdvancesPhase : (at_ 0x1E false false).seq ≠ 0x1F := by decide
theorem witness_JmpSetsSeq : exec (.jmp 0x0C) (at_ 0x0B false false) = .next (at_ 0x0C false false) ∧
    (at_ 0x0B false false).csLoad.read 0x0C = none := ⟨rfl, by decide⟩
theorem witness_CallLinksAndJumps : (at_ 0x1E false false).seq ≠ 0x1F := by decide
theorem witness_SeqPastEndRefuses : (at_ 0x1F true false).seq = 0x1F ∧ (at_ 0x1F true false).layout ≠ 3 ∧
    ({ at_ 0x1F true false with bitcnt := 16 } : State).bitcnt = 16 ∧
    (let s : State := { at_ 0x1F true false with dlyBusy := true }
     s.seq = 0x1F ∧ s.dlyBusy = true ∧ s.dlyRem = 0) ∧
    (let s := at_ 0x1F true false
     s.restartReq = false ∧ s.env.selAt s.now = awaited s.par.selActive s.phase) := by decide
theorem witness_TickCountsTimerAndDelay :
    (at_ 0x07 false false).wdRun = false ∧
    (let s : State := { at_ 0x07 false false with wdRun := true, wdCnt := 1999 }
     s.wdRun = true ∧ s.wdCnt + 1 = s.par.wdTimeoutTicks) ∧
    (let s : State := { at_ 0x07 false false with wdRun := true, wdCnt := 1998 }
     s.wdRun = true ∧ s.wdCnt + 1 ≠ s.par.wdTimeoutTicks) ∧
    (let s : State := { at_ 0x11 false false with dlyBusy := true, dlyRem := 1 }
     s.dlyBusy = true ∧ 0 < s.dlyRem) ∧
    (at_ 0x07 false false).dlyBusy = false ∧ (at_ 0x07 false false).dlyRem = 0 := by decide
theorem witness_TimePassesOnlyWhenBlocked :
    exec .waitsel (at_ 0x07 false false) = .next (at_ 0x07 false false).tick ∧
    exec .waitsel (at_ 0x07 true false) = .next (at_ 0x08 true false) := ⟨rfl, rfl⟩
theorem witness_RegistersHaveTheirWriters :
    exec .phinc (at_ 0x0A false false) = .next { at_ 0x0B false false with phase := 1 } ∧
    ({ at_ 0x0B false false with phase := 1 } : State).phase ≠ (at_ 0x0A false false).phase := ⟨rfl, by decide⟩
/-- Every clause has an instance in which the register changes. -/
theorem witness_RegistersHaveTheirWriters_each :
    let s : State := { at_ 0x07 false true with phase := 1, wdRun := true, restartReq := true }
    let changed : Instr → State → (State → State → Bool) → Bool := fun i s p => (nextOf (exec i s)).any (p s)
    (changed (.call 0x10) s (fun s t => t.lr != s.lr) && changed .smpl s (fun s t => t.shreg != s.shreg) &&
     changed .clrc s (fun s t => t.bitcnt != s.bitcnt) && changed .capt s (fun s t => t.snap != s.snap) &&
     changed .lsel { s with layout := 0 } (fun s t => t.layout != s.layout) && changed .seed s (fun s t => t.sched != s.sched) &&
     changed .phrst s (fun s t => t.phase != s.phase) && changed .wdstop s (fun s t => t.wdRun != s.wdRun) &&
     changed .waitsel { s with phase := 0, restartReq := false } (fun s t => t.wdCnt != s.wdCnt) &&
     changed .waitsel s (fun s t => t.restartReq != s.restartReq) &&
     changed (.dly 6) s (fun s t => t.dlyRem != s.dlyRem && t.dlyBusy != s.dlyBusy) &&
     changed .drive s (fun s t => t.out != s.out) && changed (.seth .latch) s (fun s t => t.latch != s.latch) &&
     changed (.setl .clk) s (fun s t => t.clk != s.clk)) = true := by decide
theorem witness_ParametersAndStoreAreConstant : step (at_ 0x1B false false) = .next (at_ 0x07 false false) := rfl

/-- The parameters of the tests are within the bounds of R9. -/
theorem par0_ok : Params.Ok par0 := ⟨by decide, by decide, superFamicom_injective⟩
theorem witness_PowerOnMeetsInvariant : Params.Ok par0 := par0_ok
theorem witness_RunNeverEnds : Params.Ok par0 := par0_ok

/-- A state of the phase loop whose timer has just expired. -/
def expired : State :=
  { at_ 0x07 false false with
    phase := 2, wdRun := true, restartReq := true, lr := 0x06, bitcnt := 16, snap := 0xA79F
    sched := build BtnPos.superFamicom 0xA79F .xc }
theorem witness_StepKeepsInvariant : RunInv expired where
  fixed_store := rfl
  timeout_pos := by decide
  seq_defined := .inl (by decide)
  link h := absurd h (by unfold InRoutine; decide)
  layout_legal _ := by decide
  sched_whole _ := ⟨0xA79F, .xc, by decide, by decide⟩
  sched_current _ := ⟨.xc, by decide, by decide⟩
  timer_on _ := .inl (by unfold InPhaseLoop; decide)
  pending_at_wait _ := by decide
  count_below := by decide
  delay_at_dly := by decide
  delay_idle := by decide
  samples_before := by decide
  samples_after := by decide
  samples_all := by decide
  latch_level := by decide
  clk_level := by decide
  phase_zero h := absurd h (by unfold InRoutine; decide)
theorem witness_LayoutNeverReassigned : RunInv expired ∧ LaidOut expired ∧
    Reaches expired { expired with restartReq := false, seq := 0x03 } :=
  ⟨witness_StepKeepsInvariant, .inr (.inl (by decide)), 1, rfl⟩

/-- The shortest legal timeout, and SEL at the active level for one microsecond from 408. -/
def shortPar : Params := ⟨1, 0, 1, true, BtnPos.superFamicom⟩
/-- Power-on of a machine whose first expiry comes at 410. -/
def shortStart : State := State.powerOn shortPar ⟨[(0, false), (408, true), (409, false)], [(0, true)]⟩ draw0
theorem shortPar_ok : Params.Ok shortPar := ⟨by decide, by decide, superFamicom_injective⟩
/-- A state of a run of `shortStart` is reachable. -/
theorem reachable_of_any {n : Nat} {P : State → Bool} (h : (nextOf (steps n shortStart)).any P = true) :
    ∃ t, Reachable t ∧ P t = true := by
  obtain ⟨t, ht, hp⟩ := exists_of_any h
  exact ⟨t, ⟨_, _, _, shortPar_ok, n, ht⟩, hp⟩

/-- In the routine, at its entry. -/
theorem witness_TimerStoppedWhileReading_routine : ∃ t, Reachable t ∧ decide (t.seq.toNat = 0x10) = true :=
  reachable_of_any (n := 1) (by decide)
set_option maxRecDepth 10000 in
/-- On the restart path after WDSTOP, here the one that first entry takes. -/
theorem witness_TimerStoppedWhileReading : ∃ t, Reachable t ∧ decide (t.seq.toNat = 0x04) = true :=
  reachable_of_any (n := 343) (by decide +kernel)
set_option maxRecDepth 10000 in
/-- At WAITSEL with the timer counting and the expiry one step away. -/
theorem witness_TimerCountsOnlyInPhaseLoop : ∃ t, Reachable t ∧
    (t.wdRun && !t.restartReq && (nextOf (step t)).any (fun u => u.restartReq)) = true :=
  reachable_of_any (n := 696) (by decide +kernel)
set_option maxRecDepth 10000 in
theorem witness_RestartTakenAtOnce : ∃ t, Reachable t ∧ t.restartReq = true :=
  reachable_of_any (n := 697) (by decide +kernel)
set_option maxRecDepth 10000 in
/-- In the phase loop, and so after SEED. -/
theorem witness_ScheduleIsOneBuild : ∃ t, Reachable t ∧ Seeded t ∧ InPhaseLoop t := by
  obtain ⟨t, h, hp⟩ := reachable_of_any (n := 685) (P := fun t => decide (t.seq.toNat = 0x07)) (by decide +kernel)
  have hp : t.seq.toNat = 0x07 := of_decide_eq_true hp
  exact ⟨t, h, .inl ⟨by omega, by omega⟩, by omega, by omega⟩
/-- Outside the routine, at power-on. -/
theorem witness_HostLinesRestOutsideRead : ∃ t, Reachable t ∧ ¬ InRoutine t :=
  ⟨shortStart, ⟨_, _, _, shortPar_ok, 0, rfl⟩, by unfold InRoutine; decide⟩
/-- During the latch pulse, and during the low half of the first clock cycle. -/
theorem witness_HostLinesRestOutsideRead_pulses :
    (∃ t, Reachable t ∧ t.latch = true) ∧ (∃ t, Reachable t ∧ (!t.clk) = true) :=
  ⟨reachable_of_any (n := 2) (by decide), reachable_of_any (n := 19) (by decide +kernel)⟩
theorem witness_SequencerStaysInDefinedWords : ∃ t, Reachable t ∧
    (nextOf (step t)).any (fun u => decide (u.seq.toNat = 0x10)) = true :=
  reachable_of_any (n := 0) (by decide)
set_option maxRecDepth 10000 in
/-- The steps that enter 0x01 and 0x02. -/
theorem witness_SequencerStaysInDefinedWords_entries :
    (∃ t, Reachable t ∧ (nextOf (step t)).any (fun u => decide (u.seq.toNat = 0x01)) = true) ∧
    (∃ t, Reachable t ∧ (nextOf (step t)).any (fun u => decide (u.seq.toNat = 0x02)) = true) :=
  ⟨reachable_of_any (n := 339) (by decide +kernel), reachable_of_any (n := 340) (by decide +kernel)⟩
set_option maxRecDepth 10000 in
/-- Past SEED, with a next state: the step into the second read. -/
theorem witness_SequencerStaysInDefinedWords_seeded : ∃ t, Reachable t ∧ Seeded t ∧
    (nextOf (step t)).any (fun u => decide (u.seq.toNat = 0x10)) = true := by
  obtain ⟨t, h, hp⟩ := reachable_of_any (n := 344)
    (P := fun t => decide (t.seq.toNat = 0x05) && (nextOf (step t)).any (fun u : State => decide (u.seq.toNat = 0x10)))
    (by decide +kernel)
  simp only [Bool.and_eq_true, decide_eq_true_eq] at hp
  exact ⟨t, h, .inl ⟨by omega, by omega⟩, hp.2⟩

/-- A machine whose delays may overrun by up to three ticks, at an address. -/
def slackAt (a : Addr) : State := { at_ a false true with par := { par0 with dlySlackTicks := 3 } }
theorem witness_HostReaderTakesSnapshot :
    let s := slackAt 0x10
    s.csLoad = [] ∧ s.seq = 0x10 ∧ Quiet s := by unfold Quiet; decide
theorem witness_HostReaderWaveform :
    let s := slackAt 0x10
    s.csLoad = [] ∧ s.seq = 0x10 ∧ Quiet s ∧ s.latch = false ∧ s.clk = true ∧
      1 ≤ 135 + clkFallAt s.par.ticksPerUs (drawn s) 16 := by
  refine ⟨rfl, rfl, ⟨rfl, rfl, rfl⟩, rfl, rfl, ?_⟩
  omega
theorem witness_BootReachesPhaseZero : Params.Ok { par0 with dlySlackTicks := 3 } :=
  ⟨by decide, by decide, superFamicom_injective⟩
theorem witness_OverrunsOnlyLengthenARead : (at_ 0x10 false true).par.dlySlackTicks = 0 := by decide
theorem witness_PhaseTransitionIsOneInstant :
    let s := at_ 0x07 true false
    s.csLoad = [] ∧ s.seq = 0x07 ∧ s.restartReq = false ∧
      s.env.selAt s.now = awaited s.par.selActive s.phase := by decide
/-- One tick before the expiry. -/
theorem witness_ExpiryTakesRestart :
    let s : State := { at_ 0x07 true false with phase := 1, wdRun := true, wdCnt := 1999 }
    s.csLoad = [] ∧ s.seq = 0x07 ∧ s.wdRun = true ∧ s.restartReq = false ∧ s.dlyBusy = false ∧ 0 < 1 ∧
      s.wdCnt + 1 = s.par.wdTimeoutTicks ∧
      ∀ k, k < 1 → s.env.selAt (s.now + k) ≠ awaited s.par.selActive s.phase := by decide
theorem witness_RestartPathResamples :
    let s : State := { slackAt 0x03 with phase := 5, wdRun := true }
    s.csLoad = [] ∧ s.seq = 0x03 ∧ s.dlyBusy = false ∧ layoutOfCode s.layout = some .xc := by decide
/-- SEL as a console that pulses it every two ticks from instant 1. -/
def pulses : Trace := [(0, false), (1, true), (3, false), (5, true), (7, false), (9, true), (11, false), (13, true),
  (15, false)]
/-- Level k is at instant 2k + 1, and the timer of the cycle before still counts, 1999 when it is rearmed. -/
theorem witness_EightLevelsMakeOneCycle :
    let s : State := { at_ 0x07 false true with env := ⟨pulses, []⟩, wdRun := true, wdCnt := 1996 }
    let f : Nat → Nat := fun k => 2 * k + 1
    s.csLoad = [] ∧ s.seq = 0x07 ∧ s.phase = 0 ∧ s.restartReq = false ∧ s.dlyBusy = false ∧ s.now ≤ f 0 ∧
    (∀ τ, s.now ≤ τ → τ < f 0 → s.env.selAt τ ≠ awaited s.par.selActive 0) ∧
    (∀ k, k < 7 → f k < f (k + 1)) ∧
    (∀ k, k < 8 → s.env.selAt (f k) = awaited s.par.selActive (BitVec.ofNat 3 k)) ∧
    (∀ k, k < 7 → ∀ τ, f k ≤ τ → τ < f (k + 1) → s.env.selAt τ = awaited s.par.selActive (BitVec.ofNat 3 k)) ∧
    (∀ k, 1 ≤ k → k < 7 → f (k + 1) - f k < s.par.wdTimeoutTicks) ∧
    s.wdRun = true ∧ s.wdCnt + (f 1 - s.now) < s.par.wdTimeoutTicks := by decide
theorem witness_IdleWaitOnlyPassesTime :
    let s := at_ 0x07 false true
    s.csLoad = [] ∧ s.seq = 0x07 ∧ s.wdRun = false ∧ s.restartReq = false ∧ s.dlyBusy = false ∧
      ∀ k, k < 3 → s.env.selAt (s.now + k) ≠ awaited s.par.selActive s.phase := by decide

end Sys2Proof.Tests
end

section
/-! SUPPORT. The step at each address of the fixed control store (spec/44_sequencer_control.md R164), as an equation,
and what a tick does to the timer and to a delay. -/

namespace Sys2Proof.Machine

open Sys2Proof

/-! ## The tick, register by register -/

@[simp] theorem State.countDelay_wdCnt (s : State) : s.countDelay.wdCnt = s.wdCnt := by
  rcases s.countDelay_spec with ⟨_, _, h⟩ | ⟨_, h⟩ <;> rw [h]

@[simp] theorem State.countDelay_restartReq (s : State) : s.countDelay.restartReq = s.restartReq := by
  rcases s.countDelay_spec with ⟨_, _, h⟩ | ⟨_, h⟩ <;> rw [h]

/-- What a tick does to the timer (R176). -/
theorem State.tick_timer_spec (s : State) :
    (s.wdRun = false ∧ s.tick.wdCnt = s.wdCnt ∧ s.tick.restartReq = s.restartReq) ∨
    (s.wdRun = true ∧ s.wdCnt + 1 = s.par.wdTimeoutTicks ∧ s.tick.wdCnt = 0 ∧ s.tick.restartReq = true) ∨
    (s.wdRun = true ∧ s.wdCnt + 1 ≠ s.par.wdTimeoutTicks ∧ s.tick.wdCnt = s.wdCnt + 1 ∧
      s.tick.restartReq = s.restartReq) := by
  simp only [State.tick, State.countDelay_wdCnt, State.countDelay_restartReq]
  rcases State.countTimer_spec { s with now := s.now + 1 } with ⟨hr, h⟩ | ⟨hr, hc, h⟩ | ⟨hr, hc, h⟩ <;> rw [h]
  · exact .inl ⟨hr, rfl, rfl⟩
  · exact .inr (.inl ⟨hr, hc, rfl, rfl⟩)
  · exact .inr (.inr ⟨hr, hc, rfl, rfl⟩)

/-- A tick with no delay in progress leaves DLY_REM (R7). -/
theorem State.tick_dlyRem_of_idle {s : State} (h : s.dlyBusy = false) : s.tick.dlyRem = s.dlyRem := by
  have hb : ({ s with now := s.now + 1 } : State).countTimer.dlyBusy = false ∧
      ({ s with now := s.now + 1 } : State).countTimer.dlyRem = s.dlyRem := by
    rcases State.countTimer_spec { s with now := s.now + 1 } with ⟨_, h'⟩ | ⟨_, _, h'⟩ | ⟨_, _, h'⟩ <;>
      rw [h'] <;> exact ⟨h, rfl⟩
  simp [State.tick, State.countDelay, hb]

/-! ## The listed operations that advance -/

section Listing

variable {s : State}

/-- The step at an address whose operation writes registers, giving `u`, and then advances. -/
theorem step_advance (hs : s.csLoad = []) {a : Addr} (ha : s.seq = a) {i : Instr}
    (hr : (romWord a.toNat).map decode = some (.ok i)) {u : State} (he : exec i s = u.advance)
    (hu : u.seq = s.seq) (hne : a ≠ 0x1F) : step s = .next { u with seq := a + 1 } := by
  have hua : u.seq = a := hu.trans ha
  rw [step_at_listed hs ha hr, he, State.advance_eq_next (hua ▸ hne), hua]

theorem step_at_lsel (hs : s.csLoad = []) (ha : s.seq = 0x01) :
    step s = .next { s with layout := codeOfLayout (select s.par.btnPos s.snap), seq := 0x02 } :=
  step_advance hs ha (i := .lsel) rfl rfl rfl (by decide)

/-- SEED and BUILD under a legal layout. -/
theorem State.rebuild_eq_advance {w : Word} {lay : Layout} (hl : layoutOfCode s.layout = some lay) :
    s.rebuild w = ({ s with sched := build s.par.btnPos w lay } : State).advance := by
  simp [State.rebuild, hl]

theorem step_at_seed (hs : s.csLoad = []) (ha : s.seq = 0x02) {lay : Layout}
    (hl : layoutOfCode s.layout = some lay) :
    step s = .next { s with sched := build s.par.btnPos 0xFFFF lay, seq := 0x03 } :=
  step_advance hs ha (i := .seed) rfl (State.rebuild_eq_advance hl) rfl (by decide)

theorem step_at_wdstop (hs : s.csLoad = []) (ha : s.seq = 0x03) :
    step s = .next { s with wdRun := false, restartReq := false, seq := 0x04 } :=
  step_advance hs ha (i := .wdstop) rfl rfl rfl (by decide)

theorem step_at_phrst (hs : s.csLoad = []) (ha : s.seq = 0x04) :
    step s = .next { s with phase := 0, seq := 0x05 } :=
  step_advance hs ha (i := .phrst) rfl rfl rfl (by decide)

theorem step_at_build (hs : s.csLoad = []) (ha : s.seq = 0x06) {lay : Layout}
    (hl : layoutOfCode s.layout = some lay) :
    step s = .next { s with sched := build s.par.btnPos s.snap lay, seq := 0x07 } :=
  step_advance hs ha (i := .build) rfl (State.rebuild_eq_advance hl) rfl (by decide)

theorem step_at_drive (hs : s.csLoad = []) (ha : s.seq = 0x08) :
    step s = .next { s with out := s.sched.entry s.phase, seq := 0x09 } :=
  step_advance hs ha (i := .drive) rfl rfl rfl (by decide)

theorem step_at_wdarm_phase_zero (hs : s.csLoad = []) (ha : s.seq = 0x09) (hp : s.phase = 0) :
    step s = .next { s with seq := 0x0A } :=
  step_advance hs ha (i := .wdarm) rfl (congrArg State.advance (if_pos hp)) rfl (by decide)

theorem step_at_wdarm (hs : s.csLoad = []) (ha : s.seq = 0x09) (hp : s.phase ≠ 0) :
    step s = .next { s with wdRun := true, wdCnt := 0, seq := 0x0A } :=
  step_advance hs ha (i := .wdarm) (u := s.startTimer) rfl (congrArg State.advance (if_neg hp)) rfl (by decide)

theorem step_at_phinc (hs : s.csLoad = []) (ha : s.seq = 0x0A) :
    step s = .next { s with phase := s.phase + 1, seq := 0x0B } :=
  step_advance hs ha (i := .phinc) (u := { s with phase := s.phase + 1 }) rfl (by simp [exec, execPhinc]) rfl
    (by decide)

theorem step_at_latch_rise (hs : s.csLoad = []) (ha : s.seq = 0x10) :
    step s = .next { s with latch := true, seq := 0x11 } :=
  step_advance hs ha (i := .seth .latch) rfl rfl rfl (by decide)

theorem step_at_latch_fall (hs : s.csLoad = []) (ha : s.seq = 0x12) :
    step s = .next { s with latch := false, seq := 0x13 } :=
  step_advance hs ha (i := .setl .latch) rfl rfl rfl (by decide)

theorem step_at_clrc (hs : s.csLoad = []) (ha : s.seq = 0x13) :
    step s = .next { s with bitcnt := 0, seq := 0x14 } :=
  step_advance hs ha (i := .clrc) rfl rfl rfl (by decide)

theorem step_at_clk_fall (hs : s.csLoad = []) (ha : s.seq = 0x14) :
    step s = .next { s with clk := false, seq := 0x15 } :=
  step_advance hs ha (i := .setl .clk) rfl rfl rfl (by decide)

theorem step_at_smpl (hs : s.csLoad = []) (ha : s.seq = 0x15) (hb : s.bitcnt ≠ 31) :
    step s = .next { s with shreg := shiftIn s.shreg (s.env.dataAt s.now), bitcnt := s.bitcnt + 1, seq := 0x16 } :=
  step_advance hs ha (i := .smpl)
    (u := { s with shreg := shiftIn s.shreg (s.env.dataAt s.now), bitcnt := s.bitcnt + 1 })
    rfl (congrArg State.advance (if_neg hb)) rfl (by decide)

theorem step_at_clk_rise (hs : s.csLoad = []) (ha : s.seq = 0x17) :
    step s = .next { s with clk := true, seq := 0x18 } :=
  step_advance hs ha (i := .seth .clk) rfl rfl rfl (by decide)

theorem step_at_loop_done (hs : s.csLoad = []) (ha : s.seq = 0x19) (hb : s.bitcnt = 16) :
    step s = .next { s with seq := 0x1A } :=
  step_advance hs ha (i := .loop 0x14) rfl (if_pos hb) rfl (by decide)

theorem step_at_capt (hs : s.csLoad = []) (ha : s.seq = 0x1A) :
    step s = .next { s with snap := s.shreg, seq := 0x1B } :=
  step_advance hs ha (i := .capt) rfl rfl rfl (by decide)

/-! ## The listed operations that jump -/

theorem step_at_loop_again (hs : s.csLoad = []) (ha : s.seq = 0x19) (hb : s.bitcnt ≠ 16) :
    step s = .next { s with seq := 0x14 } :=
  (step_at_listed hs ha (i := .loop 0x14) rfl).trans (if_neg hb)

theorem step_at_jmp (hs : s.csLoad = []) (ha : s.seq = 0x0B) : step s = .next { s with seq := 0x07 } :=
  step_at_listed hs ha (i := .jmp 0x07) rfl

theorem step_at_ret (hs : s.csLoad = []) (ha : s.seq = 0x1B) : step s = .next { s with seq := s.lr } :=
  step_at_listed hs ha (i := .ret) rfl

/-- CALL below the last address (R161). -/
theorem exec_call_eq_next {a : Addr} (ha : s.seq ≠ 0x1F) :
    exec (.call a) s = .next { s with lr := s.seq + 1, seq := a } := if_neg ha

theorem step_at_boot_call (hs : s.csLoad = []) (ha : s.seq = 0x00) :
    step s = .next { s with lr := 0x01, seq := 0x10 } := by
  rw [step_at_listed hs ha (i := .call 0x10) rfl, exec_call_eq_next (by simp [ha]), ha]
  rfl

theorem step_at_cycle_call (hs : s.csLoad = []) (ha : s.seq = 0x05) :
    step s = .next { s with lr := 0x06, seq := 0x10 } := by
  rw [step_at_listed hs ha (i := .call 0x10) rfl, exec_call_eq_next (by simp [ha]), ha]
  rfl

/-! ## The listed operations that can block -/

theorem step_at_waitsel_restart (hs : s.csLoad = []) (ha : s.seq = 0x07) (hr : s.restartReq = true) :
    step s = .next { s with restartReq := false, seq := 0x03 } :=
  (step_at_listed hs ha (i := .waitsel) rfl).trans (if_pos hr)

theorem step_at_waitsel_level (hs : s.csLoad = []) (ha : s.seq = 0x07) (hr : s.restartReq = false)
    (hl : s.env.selAt s.now = awaited s.par.selActive s.phase) : step s = .next { s with seq := 0x08 } :=
  step_advance hs ha (i := .waitsel) rfl (by simp [exec, execWaitsel, State.pin, hr, hl]) rfl (by decide)

theorem step_at_waitsel_tick (hs : s.csLoad = []) (ha : s.seq = 0x07) (hr : s.restartReq = false)
    (hl : s.env.selAt s.now ≠ awaited s.par.selActive s.phase) : step s = .next s.tick := by
  rw [step_at_listed hs ha (i := .waitsel) rfl]
  simp [exec, execWaitsel, State.pin, hr, hl]

/-- SEQ is at one of the three DLY words of R164. -/
def State.AtDelay (s : State) : Prop := s.seq = 0x11 ∨ s.seq = 0x16 ∨ s.seq = 0x18

/-- The three DLY words of the listing, the latch pulse and the two halves of a clock cycle (R9). -/
theorem listed_at_delay (ha : s.AtDelay) : ∃ us, (romWord s.seq.toNat).map decode = some (.ok (.dly us)) := by
  rcases ha with h | h | h <;> rw [h] <;> exact ⟨_, rfl⟩

theorem step_at_dly_load (hs : s.csLoad = []) (ha : s.AtDelay) (hb : s.dlyBusy = false) :
    ∃ us, step s = .next (s.loadDelay us) := by
  obtain ⟨us, hr⟩ := listed_at_delay ha
  exact ⟨us, by rw [step_at_listed hs rfl hr]; simp [exec, execDly, hb]⟩

theorem step_at_dly_tick (hs : s.csLoad = []) (ha : s.AtDelay) (hb : s.dlyBusy = true) (hr : s.dlyRem ≠ 0) :
    step s = .next s.tick := by
  obtain ⟨us, hw⟩ := listed_at_delay ha
  exact (step_at_listed hs rfl hw).trans ((if_pos hb).trans (if_neg hr))

theorem step_at_dly_done (hs : s.csLoad = []) (ha : s.AtDelay) (hb : s.dlyBusy = true) (hr : s.dlyRem = 0) :
    step s = .next { s with dlyBusy := false, seq := s.seq + 1 } := by
  obtain ⟨us, hw⟩ := listed_at_delay ha
  have hne : s.seq ≠ 0x1F := by rcases ha with h | h | h <;> rw [h] <;> decide
  exact step_advance hs rfl hw ((if_pos hb).trans (if_pos hr)) rfl hne

end Listing

end Sys2Proof.Machine
end

section
/-! SUPPORT. The run invariant (Safety.lean, `RunInv`) seen as two halves: what concerns the read in progress, and
what concerns the engine around it. A step outside the HostReader routine leaves the first half alone, a step inside
it the second. -/

namespace Sys2Proof.Safety

open Sys2Proof Sys2Proof.Machine

variable {s t : State}

/-- The half of `RunInv` about the read in progress: the delay, the sample count and the host lines. -/
structure ReadInv (s : State) : Prop where
  delay_at_dly : s.dlyBusy = true → s.seq.toNat = 0x11 ∨ s.seq.toNat = 0x16 ∨ s.seq.toNat = 0x18
  delay_idle : s.dlyBusy = false → s.dlyRem = 0
  samples_before : s.seq.toNat = 0x14 ∨ s.seq.toNat = 0x15 → s.bitcnt.toNat < 16
  samples_after : 0x16 ≤ s.seq.toNat ∧ s.seq.toNat ≤ 0x19 → 1 ≤ s.bitcnt.toNat ∧ s.bitcnt.toNat ≤ 16
  samples_all : s.seq.toNat = 0x1A ∨ s.seq.toNat = 0x1B → s.bitcnt.toNat = 16
  latch_level : s.latch = true ↔ s.seq.toNat = 0x11 ∨ s.seq.toNat = 0x12
  clk_level : s.clk = false ↔ s.seq.toNat = 0x15 ∨ s.seq.toNat = 0x16 ∨ s.seq.toNat = 0x17

/-- The half of `RunInv` about the engine: the link, the layout, the schedule, the timer and the phase. -/
structure EngineInv (s : State) : Prop where
  link : InRoutine s → s.lr = 0x01 ∨ s.lr = 0x06
  layout_legal : LaidOut s → s.layout ≠ 3
  sched_whole : Seeded s → ∃ w lay, layoutOfCode s.layout = some lay ∧ s.sched = build s.par.btnPos w lay
  sched_current : InPhaseLoop s →
    ∃ lay, layoutOfCode s.layout = some lay ∧ s.sched = build s.par.btnPos s.snap lay
  timer_on : s.wdRun = true → InPhaseLoop s ∨ s.seq.toNat = 0x03
  pending_at_wait : s.restartReq = true → s.seq.toNat = 0x07 ∧ s.wdRun = true
  count_below : s.wdCnt < s.par.wdTimeoutTicks
  phase_zero : s.seq.toNat ≤ 0x02 ∨ s.seq.toNat = 0x05 ∨ s.seq.toNat = 0x06 ∨ InRoutine s → s.phase = 0

/-- The registers the read half speaks of, SEQ and BITCNT apart. -/
def readSide (s : State) : Bool × Nat × Level × Level := (s.dlyBusy, s.dlyRem, s.latch, s.clk)

/-- The registers the engine half speaks of, SEQ and SNAP apart. -/
def engineSide (s : State) : Addr × BitVec 2 × Schedule × Phase × Bool × Nat × Bool :=
  (s.lr, s.layout, s.sched, s.phase, s.wdRun, s.wdCnt, s.restartReq)

/-- What no step changes and the invariant speaks of: the parameters and the control store. -/
def fixedSide (s : State) : Params × Memory := (s.par, s.csLoad)

theorem RunInv.readInv (h : RunInv s) : ReadInv s := { h with }

theorem RunInv.engineInv (h : RunInv s) : EngineInv s := { h with }

/-- The invariant from its two halves, in a state with the parameters and the control store of one that meets it. -/
theorem RunInv.of_halves (h : RunInv s) (hfix : fixedSide t = fixedSide s)
    (hseq : t.seq.toNat ≤ 0x0B ∨ InRoutine t) (hread : ReadInv t) (hengine : EngineInv t) : RunInv t := by
  obtain ⟨hpar, hstore⟩ := Prod.ext_iff.mp hfix
  exact { hread, hengine with
    fixed_store := hstore.trans h.fixed_store
    timeout_pos := (congrArg Params.wdTimeoutTicks hpar).symm ▸ h.timeout_pos
    seq_defined := hseq }

/-! ## Where the read half is at rest -/

/-- SEQ is outside the routine, at its entry, or past its loop: no delay is in progress and the host lines rest. -/
def ReadAtRest (s : State) : Prop := s.seq.toNat ≤ 0x10 ∨ 0x1A ≤ s.seq.toNat

/-- What the read half says at rest (R33, R109). -/
theorem ReadInv.readSide_at_rest (h : ReadInv s) (hs : ReadAtRest s) : readSide s = (false, 0, false, true) := by
  unfold ReadAtRest at hs
  have hbusy : s.dlyBusy = false := by
    by_contra hb
    have := h.delay_at_dly (by simpa using hb)
    omega
  have hlatch : s.latch = false := by
    by_contra hl
    have := h.latch_level.mp (by simpa using hl)
    omega
  have hclk : s.clk = true := by
    by_contra hc
    have := h.clk_level.mp (by simpa using hc)
    omega
  simp [readSide, hbusy, h.delay_idle hbusy, hlatch, hclk]

/-- Up to the entry of the routine the read half says nothing else. -/
theorem readInv_of_readSide (ht : t.seq.toNat ≤ 0x10) (hrest : readSide t = (false, 0, false, true)) : ReadInv t := by
  simp only [readSide, Prod.mk.injEq] at hrest
  obtain ⟨hbusy, hrem, hlatch, hclk⟩ := hrest
  exact {
    delay_at_dly := by simp [hbusy]
    delay_idle := fun _ => hrem
    samples_before := by omega
    samples_after := by omega
    samples_all := by omega
    latch_level := by simp only [hlatch, Bool.false_eq_true, false_iff]; omega
    clk_level := by simp only [hclk, Bool.true_eq_false, false_iff]; omega }

/-- A step outside the routine, into it or out of it: the engine half is all there is to show. -/
theorem RunInv.engine_step (h : RunInv s) (hs : ReadAtRest s) (ht : t.seq.toNat ≤ 0x0B ∨ t.seq.toNat = 0x10)
    (hfix : fixedSide t = fixedSide s) (hread : readSide t = readSide s) (hengine : EngineInv t) : RunInv t :=
  h.of_halves hfix (ht.imp_right fun h10 => ⟨by omega, by omega⟩)
    (readInv_of_readSide (by omega) (hread.trans (h.readInv.readSide_at_rest hs))) hengine

/-! ## The engine half, region by region -/

/-- The timer is stopped and nothing is pending except in the phase loop and at the WDSTOP (R40). -/
theorem EngineInv.timer_stopped (h : EngineInv s) (hloop : ¬ InPhaseLoop s) (hstop : s.seq.toNat ≠ 0x03) :
    s.wdRun = false ∧ s.restartReq = false := by
  have hrun : s.wdRun = false := by
    by_contra hr
    exact (h.timer_on (by simpa using hr)).elim hloop hstop
  refine ⟨hrun, ?_⟩
  by_contra hq
  obtain ⟨-, hon⟩ := h.pending_at_wait (by simpa using hq)
  exact absurd (hrun.symm.trans hon) (by decide)

theorem InRoutine.not_inPhaseLoop (h : InRoutine s) : ¬ InPhaseLoop s := by
  unfold InRoutine at h
  unfold InPhaseLoop
  omega

theorem InPhaseLoop.seeded (h : InPhaseLoop s) : Seeded s := by
  unfold InPhaseLoop at h
  unfold Seeded
  omega

/-- The schedule is `build` of the word `w` under LAYOUT. -/
def ScheduledFrom (w : Word) (s : State) : Prop :=
  ∃ lay, layoutOfCode s.layout = some lay ∧ s.sched = build s.par.btnPos w lay

theorem ScheduledFrom.layout_ne_three {w : Word} (h : ScheduledFrom w s) : s.layout ≠ 3 := by
  obtain ⟨lay, hl, -⟩ := h
  rw [layoutOfCode_eq_some.mp hl]
  exact codeOfLayout_ne_three lay

/-- On the power-on path, 0x00 to 0x02, no schedule is built yet. -/
theorem engineInv_on_boot (ht : t.seq.toNat ≤ 0x02) (hlayout : t.seq.toNat = 0x02 → t.layout ≠ 3)
    (hstop : t.wdRun = false ∧ t.restartReq = false) (hcount : t.wdCnt < t.par.wdTimeoutTicks)
    (hphase : t.phase = 0) : EngineInv t := by
  have hroutine : ¬ InRoutine t := by unfold InRoutine; omega
  have hseeded : ¬ Seeded t := by
    rintro (h | ⟨h, -⟩)
    · omega
    · exact hroutine h
  exact {
    link := fun h => absurd h hroutine
    layout_legal := fun h => hlayout (h.resolve_right hseeded)
    sched_whole := fun h => absurd h hseeded
    sched_current := fun h => absurd h.seeded hseeded
    timer_on := by simp [hstop.1]
    pending_at_wait := by simp [hstop.2]
    count_below := hcount
    phase_zero := fun _ => hphase }

/-- In the routine what is kept is the caller's: at boot nothing, at a restart the schedule. -/
theorem engineInv_in_routine (ht : InRoutine t)
    (hcaller : t.lr = 0x01 ∨ (t.lr = 0x06 ∧ ∃ w, ScheduledFrom w t))
    (hstop : t.wdRun = false ∧ t.restartReq = false) (hcount : t.wdCnt < t.par.wdTimeoutTicks)
    (hphase : t.phase = 0) : EngineInv t := by
  have hwhole : Seeded t → ∃ w, ScheduledFrom w t := by
    rintro (h | ⟨-, h6⟩)
    · have := ht.1; omega
    · exact (hcaller.resolve_left (by simp [h6])).2
  exact {
    link := fun _ => hcaller.imp_right And.left
    layout_legal := by
      rintro (h | h)
      · have := ht.1; omega
      · obtain ⟨w, hw⟩ := hwhole h; exact hw.layout_ne_three
    sched_whole := hwhole
    sched_current := fun h => absurd h ht.not_inPhaseLoop
    timer_on := by simp [hstop.1]
    pending_at_wait := by simp [hstop.2]
    count_below := hcount
    phase_zero := fun _ => hphase }

/-- On the restart path, 0x03 to 0x06, the schedule is whole, and the timer counts at the WDSTOP at most. -/
theorem engineInv_on_restart (ht : 0x03 ≤ t.seq.toNat ∧ t.seq.toNat ≤ 0x06) {w : Word} (hwhole : ScheduledFrom w t)
    (hrun : t.wdRun = true → t.seq.toNat = 0x03) (hreq : t.restartReq = false)
    (hcount : t.wdCnt < t.par.wdTimeoutTicks) (hphase : 0x05 ≤ t.seq.toNat → t.phase = 0) : EngineInv t := by
  have hroutine : ¬ InRoutine t := by unfold InRoutine; omega
  exact {
    link := fun h => absurd h hroutine
    layout_legal := fun _ => hwhole.layout_ne_three
    sched_whole := fun _ => ⟨w, hwhole⟩
    sched_current := fun h => by unfold InPhaseLoop at h; omega
    timer_on := fun h => .inr (hrun h)
    pending_at_wait := by simp [hreq]
    count_below := hcount
    phase_zero := by
      rintro (h | h | h | h)
      · omega
      · exact hphase (by omega)
      · exact hphase (by omega)
      · exact absurd h hroutine }

/-- In the phase loop the schedule is that of SNAP. -/
theorem engineInv_in_loop (ht : InPhaseLoop t) (hcurrent : ScheduledFrom t.snap t)
    (hpending : t.restartReq = true → t.seq.toNat = 0x07 ∧ t.wdRun = true)
    (hcount : t.wdCnt < t.par.wdTimeoutTicks) : EngineInv t := by
  have hroutine : ¬ InRoutine t := fun h => h.not_inPhaseLoop ht
  exact {
    link := fun h => absurd h hroutine
    layout_legal := fun _ => hcurrent.layout_ne_three
    sched_whole := fun _ => ⟨t.snap, hcurrent⟩
    sched_current := fun _ => hcurrent
    timer_on := fun _ => .inl ht
    pending_at_wait := hpending
    count_below := hcount
    phase_zero := by
      unfold InPhaseLoop at ht
      rintro (h | h | h | h)
      · omega
      · omega
      · omega
      · exact absurd h hroutine }

/-! ## Steps inside the routine -/

/-- In the routine the timer is stopped and nothing is pending. -/
theorem EngineInv.timer_stopped_in_routine (h : EngineInv s) (hs : InRoutine s) :
    s.wdRun = false ∧ s.restartReq = false :=
  h.timer_stopped hs.not_inPhaseLoop (by have := hs.1; omega)

/-- In the routine the link says whether there is a schedule to keep. -/
theorem EngineInv.caller (h : EngineInv s) (hs : InRoutine s) :
    s.lr = 0x01 ∨ (s.lr = 0x06 ∧ ∃ w, ScheduledFrom w s) :=
  (h.link hs).imp_right fun h6 => ⟨h6, h.sched_whole (.inr ⟨hs, h6⟩)⟩

/-- From one address of the routine to another with the engine's registers left alone. -/
theorem EngineInv.within_routine (h : EngineInv s) (hs : InRoutine s) (ht : InRoutine t) (hpar : t.par = s.par)
    (hside : engineSide t = engineSide s) : EngineInv t := by
  simp only [engineSide, Prod.mk.injEq] at hside
  obtain ⟨hlr, hlayout, hsched, hphase, hrun, hcnt, hreq⟩ := hside
  apply engineInv_in_routine ht
  · simpa only [ScheduledFrom, hlr, hlayout, hsched, hpar] using h.caller hs
  · simpa only [hrun, hreq] using h.timer_stopped_in_routine hs
  · simpa only [hcnt, hpar] using h.count_below
  · exact hphase.trans (h.phase_zero (.inr (.inr (.inr hs))))

/-- A step inside the routine that leaves the engine's registers alone: the read half is all there is to show. -/
theorem RunInv.read_step (h : RunInv s) (hs : InRoutine s) (ht : InRoutine t) (hfix : fixedSide t = fixedSide s)
    (hengine : engineSide t = engineSide s) (hread : ReadInv t) : RunInv t :=
  h.of_halves hfix (.inr ht) hread (h.engineInv.within_routine hs ht (congrArg Prod.fst hfix) hengine)

end Sys2Proof.Safety
end

section
/-! PROOFS. Every step of the fixed control store keeps the run invariant (spec/00_scope.md R13): one lemma per address,
first on the power-on and restart paths, then in the phase loop, then in the HostReader routine. -/

namespace Sys2Proof.Safety

open Sys2Proof Sys2Proof.Machine

variable {s : State}

/-- The step answers a next state that meets the invariant. -/
def Advances (s : State) : Prop := ∃ t, step s = .next t ∧ RunInv t

/-! ## The power-on path and the restart path -/

theorem advances_at_boot_call (h : RunInv s) (ha : s.seq = 0x00) : Advances s := by
  have hstop := h.engineInv.timer_stopped (by simp [InPhaseLoop, ha]) (by simp [ha])
  exact ⟨_, step_at_boot_call h.fixed_store ha, h.engine_step (.inl (by simp [ha])) (.inr rfl) rfl rfl
    (engineInv_in_routine ⟨by simp, by simp⟩ (.inl rfl) hstop h.count_below (h.phase_zero (.inl (by simp [ha]))))⟩

theorem advances_at_lsel (h : RunInv s) (ha : s.seq = 0x01) : Advances s := by
  have hstop := h.engineInv.timer_stopped (by simp [InPhaseLoop, ha]) (by simp [ha])
  exact ⟨_, step_at_lsel h.fixed_store ha, h.engine_step (.inl (by simp [ha])) (.inl (by simp)) rfl rfl
    (engineInv_on_boot (by simp) (fun _ => codeOfLayout_ne_three _) hstop h.count_below
      (h.phase_zero (.inl (by simp [ha]))))⟩

theorem advances_at_seed (h : RunInv s) (ha : s.seq = 0x02) : Advances s := by
  have hstop := h.engineInv.timer_stopped (by simp [InPhaseLoop, ha]) (by simp [ha])
  obtain ⟨lay, hl⟩ := layoutOfCode_isSome (h.layout_legal (.inl (by simp [ha])))
  exact ⟨_, step_at_seed h.fixed_store ha hl, h.engine_step (.inl (by simp [ha])) (.inl (by simp)) rfl rfl
    (engineInv_on_restart (by simp) ⟨lay, hl, rfl⟩ (fun _ => rfl) hstop.2 h.count_below (by simp))⟩

theorem advances_at_wdstop (h : RunInv s) (ha : s.seq = 0x03) : Advances s := by
  obtain ⟨w, hw⟩ := h.sched_whole (.inl (by simp [ha]))
  exact ⟨_, step_at_wdstop h.fixed_store ha, h.engine_step (.inl (by simp [ha])) (.inl (by simp)) rfl rfl
    (engineInv_on_restart (by simp) hw (by simp) rfl h.count_below (by simp))⟩

theorem advances_at_phrst (h : RunInv s) (ha : s.seq = 0x04) : Advances s := by
  have hstop := h.engineInv.timer_stopped (by simp [InPhaseLoop, ha]) (by simp [ha])
  obtain ⟨w, hw⟩ := h.sched_whole (.inl (by simp [ha]))
  exact ⟨_, step_at_phrst h.fixed_store ha, h.engine_step (.inl (by simp [ha])) (.inl (by simp)) rfl rfl
    (engineInv_on_restart (by simp) hw (by simp [hstop.1]) hstop.2 h.count_below (fun _ => rfl))⟩

theorem advances_at_cycle_call (h : RunInv s) (ha : s.seq = 0x05) : Advances s := by
  have hstop := h.engineInv.timer_stopped (by simp [InPhaseLoop, ha]) (by simp [ha])
  have hwhole := h.sched_whole (.inl (by simp [ha]))
  exact ⟨_, step_at_cycle_call h.fixed_store ha, h.engine_step (.inl (by simp [ha])) (.inr rfl) rfl rfl
    (engineInv_in_routine ⟨by simp, by simp⟩ (.inr ⟨rfl, hwhole⟩) hstop h.count_below
      (h.phase_zero (.inr (.inl (by simp [ha])))))⟩

theorem advances_at_build (h : RunInv s) (ha : s.seq = 0x06) : Advances s := by
  have hstop := h.engineInv.timer_stopped (by simp [InPhaseLoop, ha]) (by simp [ha])
  obtain ⟨-, lay, hl, -⟩ := h.sched_whole (.inl (by simp [ha]))
  exact ⟨_, step_at_build h.fixed_store ha hl, h.engine_step (.inl (by simp [ha])) (.inl (by simp)) rfl rfl
    (engineInv_in_loop ⟨by simp, by simp⟩ ⟨lay, hl, rfl⟩ (by simp [hstop.2]) h.count_below)⟩

/-! ## The phase loop -/

/-- Past WAITSEL nothing is pending (R181). -/
theorem RunInv.not_pending (h : RunInv s) (hs : s.seq.toNat ≠ 0x07) : s.restartReq = false := by
  by_contra hr
  exact hs (h.pending_at_wait (by simpa using hr)).1

/-- WAITSEL with a pending restart: control goes to the restart path with the schedule as it is. -/
theorem advances_at_waitsel_restart (h : RunInv s) (ha : s.seq = 0x07) (hr : s.restartReq = true) : Advances s := by
  obtain ⟨w, hw⟩ := h.sched_whole (.inl (by simp [ha]))
  exact ⟨_, step_at_waitsel_restart h.fixed_store ha hr, h.engine_step (.inl (by simp [ha])) (.inl (by simp)) rfl rfl
    (engineInv_on_restart (by simp) hw (fun _ => rfl) rfl h.count_below (by simp))⟩

/-- A step from one address of the phase loop to another that leaves the read half, the layout, the schedule and its
snapshot alone: what remains is the pending flag and the count. -/
theorem RunInv.loop_step {t : State} (h : RunInv s) (hs : InPhaseLoop s) (ht : InPhaseLoop t)
    (hfix : fixedSide t = fixedSide s) (hread : readSide t = readSide s)
    (hsched : (t.layout, t.sched, t.snap) = (s.layout, s.sched, s.snap))
    (hpending : t.restartReq = true → t.seq.toNat = 0x07 ∧ t.wdRun = true)
    (hcount : t.wdCnt < t.par.wdTimeoutTicks) : RunInv t := by
  have hcurrent : ScheduledFrom t.snap t := by
    have hpar : t.par = s.par := congrArg Prod.fst hfix
    simp only [Prod.mk.injEq] at hsched
    simpa only [ScheduledFrom, hpar, hsched] using h.sched_current hs
  exact h.engine_step (.inl (hs.2.trans (by decide))) (.inl ht.2) hfix hread
    (engineInv_in_loop ht hcurrent hpending hcount)

/-- A tick of a waiting WAITSEL: the count stays below the timeout, and an expiry finds the sequencer there. -/
theorem RunInv.tick_at_waitsel (h : RunInv s) (ha : s.seq = 0x07) (hr : s.restartReq = false) : RunInv s.tick := by
  have hrest := h.readInv.readSide_at_rest (.inl (by simp [ha]))
  have hbusy : s.dlyBusy = false := congrArg Prod.fst hrest
  have htimer : (s.tick.restartReq = true → s.tick.seq.toNat = 0x07 ∧ s.tick.wdRun = true) ∧
      s.tick.wdCnt < s.tick.par.wdTimeoutTicks := by
    have hcount := h.count_below
    have hpos := h.timeout_pos
    rcases s.tick_timer_spec with ⟨-, hc, hq⟩ | ⟨hrun, -, hc, -⟩ | ⟨-, hne, hc, hq⟩
    · simpa [hc, hq, hr] using hcount
    · simpa [hc, ha, hrun] using hpos
    · simp only [hq, hr, hc, State.tick_par]
      exact ⟨by simp, by omega⟩
  exact h.loop_step (by simp [InPhaseLoop, ha]) (by simp [InPhaseLoop, ha]) (by simp [fixedSide])
    (by simp [readSide, State.tick_dlyRem_of_idle hbusy]) (by simp) htimer.1 htimer.2

theorem advances_at_waitsel (h : RunInv s) (ha : s.seq = 0x07) : Advances s := by
  cases hr : s.restartReq with
  | true => exact advances_at_waitsel_restart h ha hr
  | false =>
    by_cases hl : s.env.selAt s.now = awaited s.par.selActive s.phase
    · exact ⟨_, step_at_waitsel_level h.fixed_store ha hr hl,
        h.loop_step (by simp [InPhaseLoop, ha]) ⟨by simp, by simp⟩ rfl rfl rfl (by simp [hr]) h.count_below⟩
    · exact ⟨_, step_at_waitsel_tick h.fixed_store ha hr hl, h.tick_at_waitsel ha hr⟩

theorem advances_at_drive (h : RunInv s) (ha : s.seq = 0x08) : Advances s := by
  have hreq := h.not_pending (by simp [ha])
  exact ⟨_, step_at_drive h.fixed_store ha,
    h.loop_step (by simp [InPhaseLoop, ha]) ⟨by simp, by simp⟩ rfl rfl rfl (by simp [hreq]) h.count_below⟩

/-- WDARM: armed, the count is 0, which is below the timeout. -/
theorem advances_at_wdarm (h : RunInv s) (ha : s.seq = 0x09) : Advances s := by
  have hreq := h.not_pending (by simp [ha])
  have hs : InPhaseLoop s := by simp [InPhaseLoop, ha]
  by_cases hp : s.phase = 0
  · exact ⟨_, step_at_wdarm_phase_zero h.fixed_store ha hp,
      h.loop_step hs ⟨by simp, by simp⟩ rfl rfl rfl (by simp [hreq]) h.count_below⟩
  · exact ⟨_, step_at_wdarm h.fixed_store ha hp,
      h.loop_step hs ⟨by simp, by simp⟩ rfl rfl rfl (by simp [hreq]) h.timeout_pos⟩

theorem advances_at_phinc (h : RunInv s) (ha : s.seq = 0x0A) : Advances s := by
  have hreq := h.not_pending (by simp [ha])
  exact ⟨_, step_at_phinc h.fixed_store ha,
    h.loop_step (by simp [InPhaseLoop, ha]) ⟨by simp, by simp⟩ rfl rfl rfl (by simp [hreq]) h.count_below⟩

theorem advances_at_jmp (h : RunInv s) (ha : s.seq = 0x0B) : Advances s := by
  have hreq := h.not_pending (by simp [ha])
  exact ⟨_, step_at_jmp h.fixed_store ha,
    h.loop_step (by simp [InPhaseLoop, ha]) ⟨by simp, by simp⟩ rfl rfl rfl (by simp [hreq]) h.count_below⟩

/-! ## The HostReader routine -/

/-- What `ReadInv` says of the sample count. -/
def SamplesInv (s : State) : Prop :=
  (s.seq.toNat = 0x14 ∨ s.seq.toNat = 0x15 → s.bitcnt.toNat < 16) ∧
  (0x16 ≤ s.seq.toNat ∧ s.seq.toNat ≤ 0x19 → 1 ≤ s.bitcnt.toNat ∧ s.bitcnt.toNat ≤ 16) ∧
  (s.seq.toNat = 0x1A ∨ s.seq.toNat = 0x1B → s.bitcnt.toNat = 16)

/-- What `ReadInv` says of the host lines. -/
def LinesInv (s : State) : Prop :=
  (s.latch = true ↔ s.seq.toNat = 0x11 ∨ s.seq.toNat = 0x12) ∧
  (s.clk = false ↔ s.seq.toNat = 0x15 ∨ s.seq.toNat = 0x16 ∨ s.seq.toNat = 0x17)

theorem RunInv.linesInv (h : RunInv s) : LinesInv s := ⟨h.latch_level, h.clk_level⟩

/-- Between the DLY words no delay is in progress (R33). -/
theorem RunInv.no_delay (h : RunInv s) (hs : ¬ s.AtDelay) : s.dlyBusy = false ∧ s.dlyRem = 0 := by
  have hbusy : s.dlyBusy = false := by
    by_contra hb
    apply hs
    simpa [State.AtDelay, ← BitVec.toNat_inj] using h.delay_at_dly (by simpa using hb)
  exact ⟨hbusy, h.delay_idle hbusy⟩

/-- A step between two addresses of the routine that leaves the engine's registers alone and ends with no delay in
progress: what remains is the sample count and the host lines. -/
theorem RunInv.routine_step {t : State} (h : RunInv s) (hs : InRoutine s) (ht : InRoutine t)
    (hfix : fixedSide t = fixedSide s) (hengine : engineSide t = engineSide s)
    (hdelay : t.dlyBusy = false ∧ t.dlyRem = 0) (hsamples : SamplesInv t) (hlines : LinesInv t) : RunInv t :=
  h.read_step hs ht hfix hengine {
    delay_at_dly := by simp [hdelay.1]
    delay_idle := fun _ => hdelay.2
    samples_before := hsamples.1
    samples_after := hsamples.2.1
    samples_all := hsamples.2.2
    latch_level := hlines.1
    clk_level := hlines.2 }

theorem advances_at_latch_rise (h : RunInv s) (ha : s.seq = 0x10) : Advances s := by
  have hlines : s.latch = false ∧ s.clk = true := by simpa [LinesInv, ha] using h.linesInv
  exact ⟨_, step_at_latch_rise h.fixed_store ha,
    h.routine_step (by simp [InRoutine, ha]) ⟨by simp, by simp⟩ rfl rfl (h.no_delay (by simp [State.AtDelay, ha]))
      (by simp [SamplesInv]) (by simp [LinesInv, hlines])⟩

theorem advances_at_latch_fall (h : RunInv s) (ha : s.seq = 0x12) : Advances s := by
  have hlines : s.latch = true ∧ s.clk = true := by simpa [LinesInv, ha] using h.linesInv
  exact ⟨_, step_at_latch_fall h.fixed_store ha,
    h.routine_step (by simp [InRoutine, ha]) ⟨by simp, by simp⟩ rfl rfl (h.no_delay (by simp [State.AtDelay, ha]))
      (by simp [SamplesInv]) (by simp [LinesInv, hlines])⟩

theorem advances_at_clrc (h : RunInv s) (ha : s.seq = 0x13) : Advances s := by
  have hlines : s.latch = false ∧ s.clk = true := by simpa [LinesInv, ha] using h.linesInv
  exact ⟨_, step_at_clrc h.fixed_store ha,
    h.routine_step (by simp [InRoutine, ha]) ⟨by simp, by simp⟩ rfl rfl (h.no_delay (by simp [State.AtDelay, ha]))
      (by simp [SamplesInv]) (by simp [LinesInv, hlines])⟩

theorem advances_at_clk_fall (h : RunInv s) (ha : s.seq = 0x14) : Advances s := by
  have hcount := h.samples_before (by simp [ha])
  have hlines : s.latch = false ∧ s.clk = true := by simpa [LinesInv, ha] using h.linesInv
  exact ⟨_, step_at_clk_fall h.fixed_store ha,
    h.routine_step (by simp [InRoutine, ha]) ⟨by simp, by simp⟩ rfl rfl (h.no_delay (by simp [State.AtDelay, ha]))
      (by simp [SamplesInv, hcount]) (by simp [LinesInv, hlines])⟩

/-- SMPL: fewer than sixteen samples before it, so the sum fits BITCNT and is 1 to 16 (R26, R105). -/
theorem advances_at_smpl (h : RunInv s) (ha : s.seq = 0x15) : Advances s := by
  have hcount := h.samples_before (by simp [ha])
  have hfits : s.bitcnt ≠ 31 := by rintro hb; simp [hb] at hcount
  have hsum : (s.bitcnt + 1).toNat = s.bitcnt.toNat + 1 := by bv_omega
  have hlines : s.latch = false ∧ s.clk = false := by simpa [LinesInv, ha] using h.linesInv
  exact ⟨_, step_at_smpl h.fixed_store ha hfits,
    h.routine_step (by simp [InRoutine, ha]) ⟨by simp, by simp⟩ rfl rfl (h.no_delay (by simp [State.AtDelay, ha]))
      (by simp only [SamplesInv, hsum]; simp; omega) (by simp [LinesInv, hlines])⟩

theorem advances_at_clk_rise (h : RunInv s) (ha : s.seq = 0x17) : Advances s := by
  have hcount := h.samples_after (by simp [ha])
  have hlines : s.latch = false ∧ s.clk = false := by simpa [LinesInv, ha] using h.linesInv
  exact ⟨_, step_at_clk_rise h.fixed_store ha,
    h.routine_step (by simp [InRoutine, ha]) ⟨by simp, by simp⟩ rfl rfl (h.no_delay (by simp [State.AtDelay, ha]))
      (by simpa [SamplesInv] using hcount) (by simp [LinesInv, hlines])⟩

/-- LOOP: below sixteen samples the next pass starts below sixteen, at sixteen the loop is over (R106). -/
theorem advances_at_loop (h : RunInv s) (ha : s.seq = 0x19) : Advances s := by
  have hcount := h.samples_after (by simp [ha])
  have hdelay := h.no_delay (by simp [State.AtDelay, ha])
  have hlines : s.latch = false ∧ s.clk = true := by simpa [LinesInv, ha] using h.linesInv
  by_cases hb : s.bitcnt = 16
  · exact ⟨_, step_at_loop_done h.fixed_store ha hb,
      h.routine_step (by simp [InRoutine, ha]) ⟨by simp, by simp⟩ rfl rfl hdelay
        (by simp [SamplesInv, hb]) (by simp [LinesInv, hlines])⟩
  · have hlt : s.bitcnt.toNat < 16 := by bv_omega
    exact ⟨_, step_at_loop_again h.fixed_store ha hb,
      h.routine_step (by simp [InRoutine, ha]) ⟨by simp, by simp⟩ rfl rfl hdelay
        (by simp [SamplesInv, hlt]) (by simp [LinesInv, hlines])⟩

theorem advances_at_capt (h : RunInv s) (ha : s.seq = 0x1A) : Advances s := by
  have hcount := h.samples_all (by simp [ha])
  have hlines : s.latch = false ∧ s.clk = true := by simpa [LinesInv, ha] using h.linesInv
  exact ⟨_, step_at_capt h.fixed_store ha,
    h.routine_step (by simp [InRoutine, ha]) ⟨by simp, by simp⟩ rfl rfl (h.no_delay (by simp [State.AtDelay, ha]))
      (by simp [SamplesInv, hcount]) (by simp [LinesInv, hlines])⟩

/-- RET: the link leads to the LSEL of the power-on path or to the BUILD of the restart path (R165). -/
theorem advances_at_ret (h : RunInv s) (ha : s.seq = 0x1B) : Advances s := by
  have hs : InRoutine s := by simp [InRoutine, ha]
  have hstop := h.engineInv.timer_stopped_in_routine hs
  have hphase := h.phase_zero (.inr (.inr (.inr hs)))
  refine ⟨_, step_at_ret h.fixed_store ha, ?_⟩
  rcases h.engineInv.caller hs with hlr | ⟨hlr, w, hw⟩
  · exact h.engine_step (.inr (by simp [ha])) (.inl (by simp [hlr])) rfl rfl
      (engineInv_on_boot (by simp [hlr]) (by simp [hlr]) hstop h.count_below hphase)
  · exact h.engine_step (.inr (by simp [ha])) (.inl (by simp [hlr])) rfl rfl
      (engineInv_on_restart (by simp [hlr]) hw (by simp [hstop.1]) hstop.2 h.count_below (fun _ => hphase))

/-! ## The delays of the routine -/

theorem inRoutine_of_atDelay (hs : s.AtDelay) : InRoutine s := by
  rcases hs with h | h | h <;> simp [InRoutine, h]

/-- While a delay is in progress the read half holds as at its load. -/
theorem ReadInv.delaying {t : State} (h : ReadInv s) (hs : s.AtDelay)
    (hsame : (t.seq, t.bitcnt, t.latch, t.clk) = (s.seq, s.bitcnt, s.latch, s.clk)) (hbusy : t.dlyBusy = true) :
    ReadInv t := by
  simp only [Prod.mk.injEq] at hsame
  obtain ⟨hseq, hcount, hlatch, hclk⟩ := hsame
  exact {
    delay_at_dly := fun _ => by rw [hseq]; rcases hs with h | h | h <;> simp [h]
    delay_idle := by simp [hbusy]
    samples_before := by simpa only [hseq, hcount] using h.samples_before
    samples_after := by simpa only [hseq, hcount] using h.samples_after
    samples_all := by simpa only [hseq, hcount] using h.samples_all
    latch_level := by simpa only [hseq, hlatch] using h.latch_level
    clk_level := by simpa only [hseq, hclk] using h.clk_level }

/-- A tick of a waiting DLY: the timer is stopped, so only the delay counts. -/
theorem RunInv.tick_at_delay (h : RunInv s) (ha : s.AtDelay) (hb : s.dlyBusy = true) : RunInv s.tick := by
  have hs := (inRoutine_of_atDelay ha)
  have hrun := (h.engineInv.timer_stopped_in_routine hs).1
  have htimer : s.tick.wdCnt = s.wdCnt ∧ s.tick.restartReq = s.restartReq := by
    simpa [hrun] using s.tick_timer_spec
  exact h.read_step hs (by simpa [InRoutine] using hs) (by simp [fixedSide]) (by simp [engineSide, htimer])
    (h.readInv.delaying ha (by simp) (by simpa using hb))

/-- The end of a delay: the sample count and the host lines are the same on both sides of each of the three words. -/
theorem RunInv.delay_done (h : RunInv s) (ha : s.AtDelay) (hr : s.dlyRem = 0) :
    RunInv { s with dlyBusy := false, seq := s.seq + 1 } := by
  have hs := inRoutine_of_atDelay ha
  have ht : InRoutine { s with dlyBusy := false, seq := s.seq + 1 } := by
    rcases ha with ha | ha | ha <;> simp [InRoutine, ha]
  have hsamples : SamplesInv { s with dlyBusy := false, seq := s.seq + 1 } := by
    have hcount := h.samples_after
    rcases ha with ha | ha | ha
    · simp [SamplesInv, ha]
    all_goals simpa [SamplesInv, ha] using hcount
  have hlines : LinesInv { s with dlyBusy := false, seq := s.seq + 1 } := by
    have hbefore := h.linesInv
    rcases ha with ha | ha | ha <;> simpa [LinesInv, ha] using hbefore
  exact h.routine_step hs ht rfl rfl ⟨rfl, hr⟩ hsamples hlines

theorem advances_at_dly (h : RunInv s) (ha : s.AtDelay) : Advances s := by
  cases hb : s.dlyBusy with
  | false =>
    obtain ⟨us, hstep⟩ := step_at_dly_load h.fixed_store ha hb
    have hs := inRoutine_of_atDelay ha
    exact ⟨_, hstep, h.read_step hs hs rfl rfl (h.readInv.delaying ha rfl rfl)⟩
  | true =>
    by_cases hr : s.dlyRem = 0
    · exact ⟨_, step_at_dly_done h.fixed_store ha hb hr, h.delay_done ha hr⟩
    · exact ⟨_, step_at_dly_tick h.fixed_store ha hb hr, h.tick_at_delay ha hb⟩

/-! ## The whole control store -/

/-- The addresses outside the routine, one by one. -/
theorem seq_cases_outside {a : Addr} (h : a.toNat ≤ 0x0B) :
    a = 0x00 ∨ a = 0x01 ∨ a = 0x02 ∨ a = 0x03 ∨ a = 0x04 ∨ a = 0x05 ∨ a = 0x06 ∨ a = 0x07 ∨ a = 0x08 ∨ a = 0x09 ∨
      a = 0x0A ∨ a = 0x0B := by
  revert a
  decide

/-- The addresses of the routine, one by one, the DLY words first. -/
theorem seq_cases_routine {a : Addr} (h : 0x10 ≤ a.toNat ∧ a.toNat ≤ 0x1B) :
    (a = 0x11 ∨ a = 0x16 ∨ a = 0x18) ∨ a = 0x10 ∨ a = 0x12 ∨ a = 0x13 ∨ a = 0x14 ∨ a = 0x15 ∨ a = 0x17 ∨ a = 0x19 ∨
      a = 0x1A ∨ a = 0x1B := by
  revert a
  decide

theorem RunInv.advances_outside (h : RunInv s) (hs : s.seq.toNat ≤ 0x0B) : Advances s := by
  rcases seq_cases_outside hs with ha | ha | ha | ha | ha | ha | ha | ha | ha | ha | ha | ha
  · exact advances_at_boot_call h ha
  · exact advances_at_lsel h ha
  · exact advances_at_seed h ha
  · exact advances_at_wdstop h ha
  · exact advances_at_phrst h ha
  · exact advances_at_cycle_call h ha
  · exact advances_at_build h ha
  · exact advances_at_waitsel h ha
  · exact advances_at_drive h ha
  · exact advances_at_wdarm h ha
  · exact advances_at_phinc h ha
  · exact advances_at_jmp h ha

theorem RunInv.advances_in_routine (h : RunInv s) (hs : InRoutine s) : Advances s := by
  rcases seq_cases_routine hs with hd | ha | ha | ha | ha | ha | ha | ha | ha | ha
  · exact advances_at_dly h hd
  · exact advances_at_latch_rise h ha
  · exact advances_at_latch_fall h ha
  · exact advances_at_clrc h ha
  · exact advances_at_clk_fall h ha
  · exact advances_at_smpl h ha
  · exact advances_at_clk_rise h ha
  · exact advances_at_loop h ha
  · exact advances_at_capt h ha
  · exact advances_at_ret h ha

theorem RunInv.advances (h : RunInv s) : Advances s :=
  h.seq_defined.elim h.advances_outside h.advances_in_routine

/-! ## Runs from power-on -/

theorem RunInv.of_step {t : State} (h : RunInv s) (ht : step s = .next t) : RunInv t := by
  obtain ⟨u, hu, hinv⟩ := h.advances
  rw [hu] at ht
  cases ht
  exact hinv

/-- At power-on both halves hold: no delay, the host lines at rest, the timer stopped, PHASE at 0 (R200). -/
theorem runInv_powerOn {p : Params} (hp : Params.Ok p) (e : Env) (d : ResetDraw) : RunInv (State.powerOn p e d) := by
  have hpos : 0 < p.wdTimeoutTicks := Nat.mul_pos hp.timeout_pos hp.ticks_pos
  have hseq : (State.powerOn p e d).seq.toNat = 0 := rfl
  have hread : ReadInv (State.powerOn p e d) := readInv_of_readSide (by omega) rfl
  have hengine : EngineInv (State.powerOn p e d) :=
    engineInv_on_boot (by omega) (by omega) ⟨rfl, rfl⟩ hpos rfl
  exact { hread, hengine with
    fixed_store := rfl
    timeout_pos := hpos
    seq_defined := .inl (by omega) }

theorem runInv_of_reachable {t : State} (h : Reachable t) : RunInv t := by
  obtain ⟨p, e, d, hp, hreach⟩ := h
  exact reaches_induction (fun _ _ hs hstep => hs.of_step hstep) (runInv_powerOn hp e d) hreach

end Sys2Proof.Safety
end

section
/-! PROOFS. The obligations of spec/00_scope.md: time (R7), and runs that neither refuse nor end (R8, R13). -/

namespace Sys2Proof.Proofs.Scope

open Sys2Proof Sys2Proof.Machine Sys2Proof.Safety

/-- Settles O41: at each address of the fixed control store the step keeps the half of the invariant it could touch,
and leaves the other half alone. -/
theorem stepKeepsInvariant : Obligations.StepKeepsInvariant := by
  intro s h
  exact h.advances

/-- Settles O36, operation by operation: only a waiting DLY and a blocked WAITSEL answer the tick, and every other
next state is the present one with registers rewritten. -/
theorem timePassesOnlyWhenBlocked : Obligations.TimePassesOnlyWhenBlocked := by
  intro i s t h
  have hinv := exec_inv h
  cases i with
  | dly us =>
    rcases hinv with ⟨-, -, rfl⟩ | ⟨hbusy, hrem, rfl⟩ | ⟨-, rfl⟩
    · exact .inl rfl
    · exact .inr ⟨rfl, s.tick_now, .inr ⟨us, rfl, hbusy, hrem⟩⟩
    · exact .inl rfl
  | waitsel =>
    rcases hinv with ⟨-, rfl⟩ | ⟨-, -, rfl⟩ | ⟨hreq, hlevel, rfl⟩
    · exact .inl rfl
    · exact .inl rfl
    · exact .inr ⟨rfl, s.tick_now, .inl ⟨rfl, hreq, hlevel⟩⟩
  | seth _ | setl _ | loop _ | wdarm => rcases hinv with ⟨-, rfl⟩ | ⟨-, rfl⟩ <;> exact .inl rfl
  | smpl => obtain ⟨_, _, _, -, rfl⟩ := hinv; exact .inl rfl
  | lsel => obtain ⟨_, rfl⟩ := hinv; exact .inl rfl
  | seed | build => obtain ⟨_, -, rfl⟩ := hinv; exact .inl rfl
  | clrc | capt | wdstop | phrst | drive | phinc | jmp _ | call _ | ret =>
    simp only at hinv
    subst hinv
    exact .inl rfl

/-- Settles O42, by induction on the number of steps: a state reached from power-on meets the invariant, so the run
has one step more. -/
theorem runNeverEnds : Obligations.RunNeverEnds := by
  intro p e d hp n
  induction n with
  | zero => exact ⟨_, rfl⟩
  | succ n ih =>
    obtain ⟨t, ht⟩ := ih
    obtain ⟨u, hu, -⟩ := (runInv_of_reachable ⟨p, e, d, hp, n, ht⟩).advances
    exact ⟨u, by rw [steps_add 1 ht, steps_one, hu]⟩

end Sys2Proof.Proofs.Scope
end

section
/-! SUPPORT. What a step is made of and what every operation leaves alone: the parameters, the input functions and the
control store (spec/10_state.md R38, spec/20_memory.md R74); SEQ at the last address (R21); and the bounds of
spec/00_scope.md R9 for the parameters of the machine's reset. -/

namespace Sys2Proof.Machine

open Sys2Proof

/-- A step that answers a next state is the execution of some operation (R163). -/
theorem exec_of_step {s t : State} (h : step s = .next t) : ∃ i, exec i s = .next t := by
  unfold step at h
  split at h
  · cases h
  · split at h
    · cases h
    · exact ⟨_, h⟩

/-- What is fixed for a run: the parameters, the input functions and the control store. -/
def State.constants (s : State) : Params × Env × Memory := (s.par, s.env, s.csLoad)

@[simp] theorem State.tick_constants (s : State) : s.tick.constants = s.constants := by
  simp [State.constants]

theorem exec_constants {i : Instr} {s t : State} (h : exec i s = .next t) : t.constants = s.constants := by
  have hinv := exec_inv h
  cases i with
  | seth _ | setl _ | loop _ | wdarm => rcases hinv with ⟨-, rfl⟩ | ⟨-, rfl⟩ <;> rfl
  | dly _ =>
    rcases hinv with ⟨-, -, rfl⟩ | ⟨-, -, rfl⟩ | ⟨-, rfl⟩
    · rfl
    · exact s.tick_constants
    · rfl
  | waitsel =>
    rcases hinv with ⟨-, rfl⟩ | ⟨-, -, rfl⟩ | ⟨-, -, rfl⟩
    · rfl
    · rfl
    · exact s.tick_constants
  | smpl => obtain ⟨_, _, _, -, rfl⟩ := hinv; rfl
  | lsel => obtain ⟨_, rfl⟩ := hinv; rfl
  | seed | build => obtain ⟨_, -, rfl⟩ := hinv; rfl
  | clrc | capt | wdstop | phrst | drive | phinc | jmp _ | call _ | ret =>
    simp only at hinv
    subst hinv
    rfl

/-! ## SEQ at the last address -/

/-- A state that stands at the last address cannot advance, whatever has been written to its other registers (R21). -/
theorem State.advance_refuses_at_end {s u : State} (hs : s.seq = 0x1F) (hu : u.seq = s.seq) :
    u.advance = .refused .seqPastEnd := State.advance_eq_refused (hu.trans hs)

theorem State.rebuild_refuses_at_end {s : State} (hs : s.seq = 0x1F) (hl : s.layout ≠ 3) (w : Word) :
    s.rebuild w = .refused .seqPastEnd := by
  obtain ⟨lay, hlay⟩ := layoutOfCode_isSome hl
  rw [State.rebuild_eq_advance hlay]
  exact State.advance_refuses_at_end hs rfl

@[simp] theorem State.countSample_seq (s : State) : s.countSample.seq = s.seq := by
  obtain ⟨_, _, -, h⟩ := s.countSample_spec
  rw [h]

/-! ## The parameters of the machine's reset -/

/-- The place of a button in the serial order, which is the order of the constructors. -/
def serialPlace (btn : Button) : Fin 16 := Fin.ofNat 16 btn.ctorIdx

theorem serialPlace_injective : Function.Injective serialPlace :=
  Function.LeftInverse.injective (g := fun n => Button.ofNat n.val) fun btn => by cases btn <;> rfl

theorem config_btnPos_at (btn : Button) : Config.btnPos.at btn = Config.btnOrder (serialPlace btn) := by
  cases btn <;> rfl

theorem config_btnPos_injective : Function.Injective Config.btnPos.at := by
  rw [funext config_btnPos_at]
  exact Config.btnOrder.injective.comp serialPlace_injective

/-- The open parameters of the machine's reset are within the bounds of R9. -/
theorem config_params_ok : Params.Ok Config.params where
  ticks_pos := Nat.le_refl 1
  timeout_pos := Nat.succ_pos _
  btnPos_injective := config_btnPos_injective

end Sys2Proof.Machine
end

section
/-! PROOFS. The obligations of spec/10_state.md: who writes each register (R20, R38), SEQ at its end (R21), the values
at reset (R20), and what holds of the timer and the schedule in every reachable state (R39 to R41). -/

namespace Sys2Proof.Proofs.StateRules

open Sys2Proof Sys2Proof.Machine Sys2Proof.Safety

/-- Settles O37, operation by operation: `exec_inv` names the registers an operation rewrites, and the clause of every
other register has nothing to answer for. -/
theorem registersHaveTheirWriters : Obligations.RegistersHaveTheirWriters := by
  intro i s t h
  have hinv := exec_inv h
  cases i with
  | seth _ | setl _ => rcases hinv with ⟨rfl, rfl⟩ | ⟨rfl, rfl⟩ <;> simp
  | loop _ | wdarm => rcases hinv with ⟨-, rfl⟩ | ⟨-, rfl⟩ <;> simp
  | dly _ => rcases hinv with ⟨-, -, rfl⟩ | ⟨-, -, rfl⟩ | ⟨-, rfl⟩ <;> simp
  | waitsel => rcases hinv with ⟨-, rfl⟩ | ⟨-, -, rfl⟩ | ⟨-, -, rfl⟩ <;> simp
  | smpl => obtain ⟨_, _, _, -, rfl⟩ := hinv; simp
  | lsel => obtain ⟨_, rfl⟩ := hinv; simp
  | seed | build => obtain ⟨_, -, rfl⟩ := hinv; simp
  | clrc | capt | wdstop | phrst | drive | phinc | jmp _ | call _ | ret =>
    simp only at hinv
    subst hinv
    simp

/-- Settles O38: no operation touches what is fixed for a run, so no word of the store reads differently. -/
theorem parametersAndStoreAreConstant : Obligations.ParametersAndStoreAreConstant := by
  intro s t h
  obtain ⟨i, hi⟩ := exec_of_step h
  have hconst := exec_constants hi
  simp only [State.constants, Prod.mk.injEq] at hconst
  obtain ⟨hpar, henv, hstore⟩ := hconst
  exact ⟨hpar, henv, fun a => by rw [hstore]⟩

/-- Settles O43: outside the phase loop and the WDSTOP the run invariant keeps the timer stopped. -/
theorem timerStoppedWhileReading : Obligations.TimerStoppedWhileReading := by
  intro t ht hseq
  refine (runInv_of_reachable ht).engineInv.timer_stopped (fun hloop => ?_) (by omega)
  obtain ⟨hlow, hhigh⟩ := hloop
  omega

/-- Only a tick raises the pending flag: the other writers of RESTART_REQ clear it (R32). -/
theorem eq_tick_of_raises_pending {i : Instr} {s t : State} (h : exec i s = .next t) (hs : s.restartReq = false)
    (ht : t.restartReq = true) : t = s.tick := by
  obtain ⟨-, -, -, -, -, -, -, -, -, hwriters, -⟩ := registersHaveTheirWriters i s t h
  have hinv := exec_inv h
  rcases hwriters (by simp [hs, ht]) with rfl | rfl | htick
  · rcases hinv with ⟨-, rfl⟩ | ⟨-, -, rfl⟩ | ⟨-, -, htick⟩
    · cases ht
    · exact absurd (hs.symm.trans ht) (by decide)
    · exact htick
  · simp only at hinv
    subst hinv
    cases ht
  · exact htick

/-- Settles O44: the invariant of the present state says where the timer counts; a step that raises the pending flag is
a tick, which leaves SEQ where the invariant of the next state wants it, at WAITSEL. -/
theorem timerCountsOnlyInPhaseLoop : Obligations.TimerCountsOnlyInPhaseLoop := by
  intro t ht
  have hinv := runInv_of_reachable ht
  refine ⟨hinv.timer_on, fun u hu hoff hon => ?_⟩
  obtain ⟨i, hi⟩ := exec_of_step hu
  have hwait := ((hinv.of_step hu).pending_at_wait hon).1
  rwa [eq_tick_of_raises_pending hi hoff hon, State.tick_seq] at hwait

/-- Settles O46, by the two schedule clauses of the run invariant. -/
theorem scheduleIsOneBuild : Obligations.ScheduleIsOneBuild := by
  intro t ht
  have hinv := runInv_of_reachable ht
  exact ⟨hinv.sched_whole, hinv.sched_current⟩

/-- Settles O34: each of these operations comes down to the `advance` of a state with the same SEQ. -/
theorem seqPastEndRefuses : Obligations.SeqPastEndRefuses := by
  intro s hs
  have refuses {u : State} (hu : u.seq = s.seq) := State.advance_refuses_at_end hs hu
  refine ⟨?_, fun _ => if_pos hs, fun hl => ⟨State.rebuild_refuses_at_end hs hl _,
    State.rebuild_refuses_at_end hs hl _⟩, ?_, ?_, ?_⟩
  · simp only [List.forall_mem_cons]
    have hwdarm : (if s.phase = 0 then s else s.startTimer).seq = s.seq := by split <;> rfl
    exact ⟨refuses rfl, refuses rfl, refuses rfl, refuses rfl, refuses rfl, refuses (State.countSample_seq _),
      refuses rfl, refuses rfl, refuses rfl, refuses rfl, refuses rfl, refuses hwdarm, refuses rfl, by simp⟩
  · intro hsamples a
    exact (if_pos hsamples).trans (refuses rfl)
  · intro hbusy hrem us
    have hdone : exec (.dly us) s = ({ s with dlyBusy := false } : State).advance := by
      simp [exec, execDly, hbusy, hrem]
    exact hdone.trans (refuses rfl)
  · intro hreq hlevel
    have hgo : exec .waitsel s = s.advance := by
      simp [exec, execWaitsel, State.pin, hreq, hlevel]
    exact hgo.trans (refuses rfl)

/-- Settles O39: power-on writes the values down, and the machine's reset is the power-on with the open parameters. -/
theorem resetValues : Obligations.ResetValues := by
  refine ⟨fun p e d => ?_, Config.params, ⟨[], []⟩, ResetDraw.named, config_params_ok, rfl, rfl⟩
  exact ⟨rfl, rfl, rfl, rfl, rfl, rfl, rfl, rfl, rfl, rfl, rfl⟩

/-- Settles O40: the machine's reset is a power-on within the bounds. -/
theorem powerOnMeetsInvariant : Obligations.PowerOnMeetsInvariant :=
  ⟨fun _ e d hp => runInv_powerOn hp e d, runInv_powerOn config_params_ok _ _⟩

end Sys2Proof.Proofs.StateRules
end

section
/-! SUPPORT. The decoder seen from the two fields of a word (spec/30_encoding.md R86): what each of the four operand
checks of R87 accepts and rejects, which of them stands at each opcode (R88), and so when a word selects an operation
(R89) and when it selects none (R90). -/

namespace Sys2Proof

open Sys2Proof.Laws.WordFields (opcOf_wordOf argOf_wordOf)

/-! ## The fields of a word, by mask and by shift -/

/-- A word is its two fields (R86). -/
theorem wordOf_opcOf_argOf (w : Word) : wordOf (opcOf w) (argOf w) = w :=
  BitVec.extractLsb'_append_extractLsb'

theorem wordOf_eq_iff {o a : BitVec 8} {w : Word} : wordOf o a = w ↔ opcOf w = o ∧ argOf w = a := by
  constructor
  · rintro rfl
    exact ⟨opcOf_wordOf o a, argOf_wordOf o a⟩
  · rintro ⟨rfl, rfl⟩
    exact wordOf_opcOf_argOf w

theorem toNat_wordOf_zero (a : BitVec 8) : (wordOf 0 a).toNat = a.toNat :=
  (BitVec.toNat_append ..).trans (by simp)

/-- A mask acts on the two fields one by one. -/
theorem and_wordOf (w : Word) (m n : BitVec 8) : w &&& wordOf m n = wordOf (opcOf w &&& m) (argOf w &&& n) := by
  conv_lhs => rw [← wordOf_opcOf_argOf w]
  exact BitVec.and_append

/-- The match of R89 on the high byte. -/
theorem and_highByte_eq_iff {w : Word} {o : BitVec 8} : w &&& 0xFF00 = wordOf o 0 ↔ opcOf w = o := by
  have hmask : w &&& 0xFF00 = wordOf (opcOf w) 0 :=
    (and_wordOf w 0xFF 0).trans (congrArg₂ wordOf BitVec.and_allOnes BitVec.and_zero)
  rw [eq_comm, hmask, wordOf_eq_iff, opcOf_wordOf, argOf_wordOf, and_iff_left rfl]

theorem toNat_and_lowByte (w : Word) : (w &&& 0xFF).toNat = (argOf w).toNat := by
  have hmask : w &&& 0xFF = wordOf 0 (argOf w) :=
    (and_wordOf w 0 0xFF).trans (congrArg₂ wordOf BitVec.and_zero BitVec.and_allOnes)
  rw [hmask, toNat_wordOf_zero]

theorem toNat_shiftRight_eight (w : Word) : (w >>> 8).toNat = (opcOf w).toNat := by
  simp only [opcOf, BitVec.extractLsb'_toNat, BitVec.toNat_ushiftRight, Nat.shiftRight_eq_div_pow]
  omega

/-- The three bits above the address in an operand byte (R87) are bits 7 to 5 of the word. -/
theorem and_targetBits_eq_zero_iff {w : Word} : w &&& 0xE0 = 0 ↔ (argOf w).extractLsb' 5 3 = 0 := by
  have hmask : w &&& 0xE0 = wordOf 0 (argOf w &&& 0xE0) :=
    (and_wordOf w 0 0xE0).trans (congrArg (wordOf · _) BitVec.and_zero)
  have hbits : ∀ a : BitVec 8, a &&& 0xE0 = 0 ↔ a.extractLsb' 5 3 = 0 := by decide
  rw [← hbits, ← BitVec.toNat_inj, hmask, toNat_wordOf_zero, ← BitVec.toNat_inj]
  rfl

/-! ## The four operand checks (R87) -/

section OperandChecks
variable {i j : Instr} {arg : BitVec 8}

theorem ite_eq_ok_iff {c : Prop} [Decidable c] {r : DecodeReject} :
    (if c then Decoded.ok i else .reject r) = .ok j ↔ c ∧ i = j := by
  split <;> simp [*]

theorem ite_rejects_iff {c : Prop} [Decidable c] {r : DecodeReject} :
    (∃ r', (if c then Decoded.ok i else .reject r) = .reject r') ↔ ¬ c := by
  split <;> simp [*]

theorem decodeNone_eq_ok_iff : decodeNone i arg = .ok j ↔ arg = 0 ∧ i = j := ite_eq_ok_iff

theorem decodeNone_rejects_iff : (∃ r, decodeNone i arg = .reject r) ↔ arg ≠ 0 := ite_rejects_iff

/-- The two host lines are those an operand byte can name. -/
theorem Pin.isHostLine_iff {p : Pin} : p.isHostLine = true ↔ p = .latch ∨ p = .clk := by
  cases p <;> decide

theorem decodePin_eq_ok_iff {f : Pin → Instr} :
    decodePin f arg = .ok j ↔ ∃ p, p.isHostLine = true ∧ arg = p.id ∧ f p = j := by
  unfold decodePin
  simp only [Pin.isHostLine_iff, or_and_right, exists_or, exists_eq_left, Pin.id]
  grind

theorem decodePin_rejects_iff {f : Pin → Instr} : (∃ r, decodePin f arg = .reject r) ↔ arg ≠ 8 ∧ arg ≠ 9 := by
  unfold decodePin
  split
  · simp [*]
  · exact ite_rejects_iff.trans (and_iff_right ‹_›).symm

/-- An operand byte with its upper three bits 0 is an address. -/
theorem eq_setWidth_iff {a : Addr} : arg = a.setWidth 8 ↔ arg.extractLsb' 5 3 = 0 ∧ arg.extractLsb' 0 5 = a := by
  simp only [← BitVec.toNat_inj, BitVec.toNat_setWidth, BitVec.extractLsb'_toNat, Nat.shiftRight_eq_div_pow,
    BitVec.ofNat_eq_ofNat, BitVec.toNat_ofNat]
  omega

theorem decodeAddr_eq_ok_iff {f : Addr → Instr} :
    decodeAddr f arg = .ok j ↔ ∃ a : Addr, arg = a.setWidth 8 ∧ f a = j := by
  simp only [eq_setWidth_iff, and_assoc, exists_and_left, exists_eq_left']
  exact ite_eq_ok_iff

theorem decodeAddr_rejects_iff {f : Addr → Instr} :
    (∃ r, decodeAddr f arg = .reject r) ↔ arg.extractLsb' 5 3 ≠ 0 := ite_rejects_iff

end OperandChecks

/-! ## The opcode map (R88) -/

/-- What the decoder does with opcode `n` and operand byte `arg`, by the operand use of R87: the operations it can
answer carry the opcode, and the operand byte the check accepts. -/
inductive OpcodeMap (n : Nat) (arg : BitVec 8) : Decoded → Prop
  | bare (i : Instr) (hopc : i.opcode.toNat = n) (harg : i.argByte = 0) (hwf : i.wellFormed = true)
      (hn : 0 < n ∧ n < 0x14 ∧ n ≠ 1 ∧ n ≠ 2 ∧ n ≠ 3 ∧ n ≠ 6 ∧ n ≠ 0x11 ∧ n ≠ 0x12) :
      OpcodeMap n arg (decodeNone i arg)
  | pin (f : Pin → Instr) (hopc : ∀ p, (f p).opcode.toNat = n) (harg : ∀ p, (f p).argByte = p.id)
      (hwf : ∀ p, (f p).wellFormed = p.isHostLine) (hn : n = 1 ∨ n = 2) : OpcodeMap n arg (decodePin f arg)
  | us (hn : n = 3) : OpcodeMap n arg (decodeUs .dly arg)
  | addr (f : Addr → Instr) (hopc : ∀ a, (f a).opcode.toNat = n) (harg : ∀ a : Addr, (f a).argByte = a.setWidth 8)
      (hwf : ∀ a, (f a).wellFormed = true) (hn : n = 6 ∨ n = 0x11 ∨ n = 0x12) : OpcodeMap n arg (decodeAddr f arg)
  | unused (hn : n = 0 ∨ 0x14 ≤ n) : OpcodeMap n arg (.reject .unusedOpcode)

/-- The decoder follows the opcode map. -/
theorem opcodeMap_decode (w : Word) : OpcodeMap (opcOf w).toNat (argOf w) (decode w) := by
  unfold decode
  generalize (opcOf w).toNat = n
  split
  case h_1 | h_2 => exact .pin _ (fun _ => rfl) (fun _ => rfl) (fun _ => rfl) (by decide)
  case h_3 => exact .us rfl
  case h_6 | h_17 | h_18 => exact .addr _ (fun _ => rfl) (fun _ => rfl) (fun _ => rfl) (by decide)
  case h_20 => exact .unused (by grind)
  all_goals exact .bare _ rfl rfl rfl (by decide)

/-! ## Selection (R89) and rejection (R90) -/

/-- The fields of a well-formed operation decode to it: at its opcode stands the check that accepts its operand. -/
theorem decode_of_fields {w : Word} {i : Instr} (hwf : i.wellFormed = true) (hopc : opcOf w = i.opcode)
    (harg : argOf w = i.argByte) : decode w = .ok i := by
  unfold decode
  rw [hopc, harg]
  cases i with
  | seth p | setl p => exact decodePin_eq_ok_iff.mpr ⟨p, hwf, rfl, rfl⟩
  | loop a | jmp a | call a => exact decodeAddr_eq_ok_iff.mpr ⟨a, rfl, rfl⟩
  | dly _ => rfl
  | _ => exact decodeNone_eq_ok_iff.mpr ⟨rfl, rfl⟩

/-- A word that decodes to an operation has its fields, and the operation is well formed. -/
theorem fields_of_decode {w : Word} {i : Instr} (h : decode w = .ok i) :
    i.wellFormed = true ∧ opcOf w = i.opcode ∧ argOf w = i.argByte := by
  have hmap := opcodeMap_decode w
  generalize decode w = d at h hmap
  cases hmap with
  | bare j hopc harg hwf _ =>
    obtain ⟨hzero, rfl⟩ := decodeNone_eq_ok_iff.mp h
    exact ⟨hwf, (BitVec.eq_of_toNat_eq hopc).symm, hzero.trans harg.symm⟩
  | pin f hopc harg hwf _ =>
    obtain ⟨p, hhost, hid, rfl⟩ := decodePin_eq_ok_iff.mp h
    exact ⟨(hwf p).trans hhost, (BitVec.eq_of_toNat_eq (hopc p)).symm, hid.trans (harg p).symm⟩
  | us hn =>
    obtain rfl : .dly (argOf w) = i := Decoded.ok.inj h
    exact ⟨rfl, BitVec.eq_of_toNat_eq hn, rfl⟩
  | addr f hopc harg hwf _ =>
    obtain ⟨a, haddr, rfl⟩ := decodeAddr_eq_ok_iff.mp h
    exact ⟨hwf a, (BitVec.eq_of_toNat_eq (hopc a)).symm, haddr.trans (harg a).symm⟩
  | unused _ => cases h

/-- A word decodes to an operation exactly when it is the word of that operation. -/
theorem decode_eq_ok_iff {w : Word} {i : Instr} : decode w = .ok i ↔ i.wellFormed = true ∧ encode i = w := by
  rw [encode, wordOf_eq_iff]
  exact ⟨fields_of_decode, fun ⟨hwf, hopc, harg⟩ => decode_of_fields hwf hopc harg⟩

/-- Mask and match of R89, and then the operand check. -/
theorem decode_eq_ok_iff_match {w m : Word} {i : Instr} {operand : Prop} (o : BitVec 8)
    (ho : i.opcode = o) (hm : m = wordOf o 0) (hoperand : (i.wellFormed = true ∧ argOf w = i.argByte) ↔ operand) :
    decode w = .ok i ↔ (w &&& 0xFF00) = m ∧ operand := by
  rw [decode_eq_ok_iff, encode, wordOf_eq_iff, ho, hm, and_highByte_eq_iff, and_left_comm, hoperand]

/-- A host line with its id in the operand byte is LATCH with 8 or CLK with 9 (R87). -/
theorem isHostLine_and_id_iff {p : Pin} {arg : BitVec 8} :
    (p.isHostLine = true ∧ arg = p.id) ↔ (p = .latch ∧ arg = 8) ∨ (p = .clk ∧ arg = 9) := by
  rw [Pin.isHostLine_iff, or_and_right]
  exact or_congr (and_congr_right fun h => by rw [h]; rfl) (and_congr_right fun h => by rw [h]; rfl)

end Sys2Proof

namespace Sys2Proof.Machine

/-! ## Fetches that find no operation (R91) -/

theorem step_of_fetch_none {s : State} (h : s.fetch = none) : step s = .refused (.undefinedAddress s.seq) := by
  unfold step
  rw [h]

theorem step_of_decode_reject {s : State} {w : Word} {r : DecodeReject} (hf : s.fetch = some w)
    (hd : decode w = .reject r) : step s = .refused (.reservedWord w r) := by
  unfold step
  rw [hf]
  simp only [hd]

theorem State.fetch_of_csLoad_nil {s : State} (h : s.csLoad = []) : s.fetch = romWord s.seq.toNat := by
  simp [State.fetch, Memory.read, Memory.find, h]

/-- The undefined addresses of the listing (R164). -/
theorem romWord_eq_none_of_undefined {a : Addr} (h : (0x0C ≤ a.toNat ∧ a.toNat ≤ 0x0F) ∨ 0x1C ≤ a.toNat) :
    romWord a.toNat = none := by
  revert a
  decide

end Sys2Proof.Machine
end

section
/-! PROOFS. The obligations of spec/30_encoding.md: the word format and the opcode map (R86 to R91). -/

namespace Sys2Proof.Proofs.Encoding

open Sys2Proof Sys2Proof.Machine

/-- Settles O2: the decoder answers every operation whose word it is given. -/
theorem decodeOfEncode : Obligations.DecodeOfEncode := fun _ hwf => decode_eq_ok_iff.mpr ⟨hwf, rfl⟩

/-- Settles O3: the operation an accepted word decodes to fixes both fields of the word. -/
theorem encodeOfDecode : Obligations.EncodeOfDecode := fun _ _ h => decode_eq_ok_iff.mp h

/-- Settles O4: the operand use at each opcode says which operand bytes are rejected, and the opcodes without an
operation reject them all. -/
theorem reservedWordsAreRejected : Obligations.ReservedWordsAreRejected := by
  intro w
  simp only [ne_eq, ← BitVec.toNat_inj (x := w >>> 8), ← BitVec.toNat_inj (x := w &&& 0xFF), toNat_shiftRight_eight,
    toNat_and_lowByte, and_targetBits_eq_zero_iff]
  have hmap := opcodeMap_decode w
  generalize decode w = d at hmap
  cases hmap with
  | bare i _ _ _ hn =>
    obtain ⟨hpos, hlt, hpin1, hpin2, hus, haddr1, haddr2, haddr3⟩ := hn
    rw [decodeNone_rejects_iff, ne_eq, ← BitVec.toNat_inj]
    simp [*, hpos.ne', hlt.not_ge]
  | pin f _ _ _ hn =>
    rw [decodePin_rejects_iff, ne_eq, ← BitVec.toNat_inj, ne_eq, ← BitVec.toNat_inj]
    rcases hn with hn | hn <;> simp [hn]
  | us hn => simp [decodeUs, hn]
  | addr f _ _ _ hn =>
    rw [decodeAddr_rejects_iff]
    rcases hn with hn | hn | hn <;> simp [hn]
  | unused hn =>
    exact iff_of_true ⟨_, rfl⟩ (hn.imp_right .inl)

/-- Settles O5: an operation without operand has one word, so the whole word is matched; for the others the match on
the high byte leaves the operand byte to the check of R87. -/
theorem maskAndMatchSelect : Obligations.MaskAndMatchSelect := by
  intro w
  refine ⟨fun p hp => ?_, fun p => ⟨?_, ?_⟩, fun us => ?_, fun a => ⟨?_, ?_, ?_⟩⟩
  · have hword : p.2.wellFormed = true ∧ encode p.2 = p.1 <<< 8 := by
      revert p
      decide
    rw [decode_eq_ok_iff, hword.2, and_iff_right hword.1, show w &&& 0xFFFF = w from BitVec.and_allOnes, eq_comm]
  · exact decode_eq_ok_iff_match 0x01 rfl rfl isHostLine_and_id_iff
  · exact decode_eq_ok_iff_match 0x02 rfl rfl isHostLine_and_id_iff
  · exact decode_eq_ok_iff_match 0x03 rfl rfl (and_iff_right rfl)
  · exact decode_eq_ok_iff_match 0x06 rfl rfl (and_iff_right rfl)
  · exact decode_eq_ok_iff_match 0x11 rfl rfl (and_iff_right rfl)
  · exact decode_eq_ok_iff_match 0x12 rfl rfl (and_iff_right rfl)

/-- Settles O1, vector by vector. -/
theorem sampleWordsDecode : Obligations.SampleWordsDecode := by
  unfold Obligations.SampleWordsDecode
  decide

/-- Settles O7: the fixed control store lists no word at those addresses. -/
theorem undefinedFetchRefuses : Obligations.UndefinedFetchRefuses :=
  ⟨fun _ => step_of_fetch_none, fun _ _ _ => step_of_decode_reject, fun _ hs ha =>
    step_of_fetch_none ((State.fetch_of_csLoad_nil hs).trans (romWord_eq_none_of_undefined ha))⟩

end Sys2Proof.Proofs.Encoding
end

section
/-! SUPPORT. The HostReader operations one by one (spec/40_host_reader.md R101 to R105), and runs along which the two
host lines stand still: a whole delay is one of them. -/

namespace Sys2Proof

open Sys2Proof.Laws.WordFields (opcOf_wordOf argOf_wordOf)

/-! ## Words and bits -/

theorem decodePin_reserved {f : Pin → Instr} {arg : BitVec 8} (h8 : arg ≠ 8) (h9 : arg ≠ 9) :
    decodePin f arg = .reject .reservedPin := (if_neg h8).trans (if_neg h9)

theorem decode_wordOf_seth (arg : BitVec 8) : decode (wordOf 0x01 arg) = decodePin .seth arg := by
  unfold decode
  rw [opcOf_wordOf, argOf_wordOf]
  rfl

theorem decode_wordOf_setl (arg : BitVec 8) : decode (wordOf 0x02 arg) = decodePin .setl arg := by
  unfold decode
  rw [opcOf_wordOf, argOf_wordOf]
  rfl

end Sys2Proof

namespace Sys2Proof.Machine

open Sys2Proof

theorem shiftIn_getLsbD_zero (w : Word) (d : Level) : (shiftIn w d).getLsbD 0 = d := by
  refine (BitVec.getLsbD_append (x := w.extractLsb' 0 15) (y := BitVec.ofBool d)).trans ?_
  simp

theorem shiftIn_getLsbD_succ (w : Word) (d : Level) {k : Nat} (hk : k < 15) :
    (shiftIn w d).getLsbD (k + 1) = w.getLsbD k := by
  refine (BitVec.getLsbD_append (x := w.extractLsb' 0 15) (y := BitVec.ofBool d)).trans ?_
  simp [hk]

/-! ## The three parts of DLY (R103) -/

section Delay

variable {s : State} {us : BitVec 8}

theorem exec_dly_load (hb : s.dlyBusy = false) : exec (.dly us) s = .next (s.loadDelay us) := by
  simp [exec, execDly, hb]

theorem exec_dly_tick (hb : s.dlyBusy = true) (hr : s.dlyRem ≠ 0) : exec (.dly us) s = .next s.tick :=
  (if_pos hb).trans (if_neg hr)

theorem exec_dly_done (hb : s.dlyBusy = true) (hr : s.dlyRem = 0) (hne : s.seq ≠ 0x1F) :
    exec (.dly us) s = .next { s with dlyBusy := false, seq := s.seq + 1 } :=
  ((if_pos hb).trans (if_pos hr)).trans (State.advance_eq_next (s := { s with dlyBusy := false }) hne)

/-- With the timer stopped a tick of a delay in progress is one instant and one tick of the delay. -/
theorem State.tick_of_delaying {r : Nat} (hb : s.dlyBusy = true) (hr : s.dlyRem = r + 1) (hw : s.wdRun = false) :
    s.tick = { s with now := s.now + 1, dlyRem := r } := by
  simp [State.tick, State.countTimer, State.countDelay, hb, hr, hw]

/-- The word at SEQ is this operation. -/
def State.Selects (s : State) (i : Instr) : Prop := ∃ w, s.fetch = some w ∧ decode w = .ok i

theorem step_of_selects {i : Instr} (h : s.Selects i) : step s = exec i s := by
  obtain ⟨w, hf, hd⟩ := h
  unfold step
  rw [hf]
  simp only [hd]

/-- With the fixed control store the operation selected is the one listed (R164). -/
theorem State.selects_of_listed {i : Instr} (hs : s.csLoad = [])
    (hr : (romWord s.seq.toNat).map decode = some (.ok i)) : s.Selects i := by
  obtain ⟨w, hw, hd⟩ := Option.map_eq_some_iff.mp hr
  exact ⟨w, (State.fetch_of_csLoad_nil hs).trans hw, hd⟩

end Delay

end Sys2Proof.Machine

namespace Sys2Proof.Safety

open Sys2Proof Sys2Proof.Machine

/-! ## Runs with the host lines at rest -/

/-- The levels of LATCH and CLK. -/
def hostLines (s : State) : Level × Level := (s.latch, s.clk)

/-- In the state `n` steps after `s` the host lines stand at `lines`. -/
def LinesAfter (s : State) (n : Nat) (lines : Level × Level) : Prop :=
  ∃ t, steps n s = .next t ∧ hostLines t = lines

/-- `n` steps lead from `s` to `t`, and in every state before `t` the host lines stand at `lines`. -/
structure Steady (lines : Level × Level) (n : Nat) (s t : State) : Prop where
  run : steps n s = .next t
  at_rest : ∀ m, m < n → LinesAfter s m lines

section Steady

variable {lines : Level × Level} {m n : Nat} {s t u : State}

theorem Steady.refl (s : State) : Steady lines 0 s s := ⟨rfl, by omega⟩

theorem Steady.of_step (hl : hostLines s = lines) (h : step s = .next t) : Steady lines 1 s t where
  run := (steps_one s).trans h
  at_rest j hj := by
    obtain rfl : j = 0 := by omega
    exact ⟨s, rfl, hl⟩

/-- The lines seen from a state `m` steps before the run. -/
theorem Steady.lines_after (h : Steady lines n t u) (hm : steps m s = .next t) {j : Nat} (hmj : m ≤ j)
    (hj : j < m + n) : LinesAfter s j lines := by
  obtain ⟨v, hv, hl⟩ := h.at_rest (j - m) (by omega)
  rw [← steps_add _ hm, Nat.add_sub_cancel' hmj] at hv
  exact ⟨v, hv, hl⟩

theorem Steady.trans (h₁ : Steady lines m s t) (h₂ : Steady lines n t u) : Steady lines (m + n) s u where
  run := (steps_add n h₁.run).trans h₂.run
  at_rest j hj := by
    by_cases hjm : j < m
    · exact h₁.at_rest j hjm
    · exact h₂.lines_after h₁.run (by omega) hj

/-- One step in front of a run with the lines at the same levels. -/
theorem Steady.cons (hl : hostLines s = lines) (h : step s = .next t) (hrest : Steady lines n t u) :
    Steady lines (n + 1) s u := Nat.add_comm 1 n ▸ (Steady.of_step hl h).trans hrest

end Steady

/-! ## A whole delay (R103) -/

section Delay

variable {s : State} {us : BitVec 8}

/-- The wait of a delay with `r` ticks to go. -/
theorem steady_wait (r : Nat) (hsel : s.Selects (.dly us)) (hb : s.dlyBusy = true) (hw : s.wdRun = false) :
    Steady (hostLines s) r { s with dlyRem := r } { s with now := s.now + r, dlyRem := 0 } := by
  induction r generalizing s with
  | zero => exact Steady.refl _
  | succ r ih =>
    have htick : step { s with dlyRem := r + 1 } = .next { s with now := s.now + 1, dlyRem := r } := by
      rw [step_of_selects (s := { s with dlyRem := r + 1 }) hsel,
        exec_dly_tick (s := { s with dlyRem := r + 1 }) hb (Nat.succ_ne_zero r),
        State.tick_of_delaying (s := { s with dlyRem := r + 1 }) hb rfl hw]
    have hrest := ih (s := { s with now := s.now + 1 }) hsel hb hw
    rw [show s.now + (r + 1) = s.now + 1 + r by omega]
    exact .cons rfl htick hrest

/-- From the load to the completion. -/
theorem steady_delay (hsel : s.Selects (.dly us)) (hb : s.dlyBusy = false) (hw : s.wdRun = false)
    (hne : s.seq ≠ 0x1F) :
    Steady (hostLines s) (s.delayTicks us + 2) s
      { s with now := s.now + s.delayTicks us, dlyRem := 0, drawIx := s.drawIx + 1, seq := s.seq + 1 } := by
  have hload : step s = .next (s.loadDelay us) := (step_of_selects hsel).trans (exec_dly_load hb)
  have hwait := steady_wait (s := s.loadDelay us) (s.delayTicks us) hsel rfl hw
  have hdone : step { s.loadDelay us with now := s.now + s.delayTicks us, dlyRem := 0 } = .next
      { s with now := s.now + s.delayTicks us, dlyRem := 0, drawIx := s.drawIx + 1, seq := s.seq + 1 } := by
    rw [step_of_selects (s := { s.loadDelay us with now := s.now + s.delayTicks us, dlyRem := 0 }) hsel,
      exec_dly_done (s := { s.loadDelay us with now := s.now + s.delayTicks us, dlyRem := 0 }) rfl rfl hne]
    simp [State.loadDelay, hb]
  exact .cons rfl hload (hwait.trans (.of_step rfl hdone))

end Delay

end Sys2Proof.Safety
end

section
/-! SUPPORT. One read of the host controller (spec/40_host_reader.md R108), entered at 0x10 with the fixed control
store: the state right after each edge of CLK, the run from one edge to the next, and from them the state at the end
of the read and the levels of the host lines in every state of it. -/

namespace Sys2Proof.Safety

open Sys2Proof Sys2Proof.Machine

/-! ## The word that the samples make -/

/-- The shift register after `n` samples of the levels `d`, from the word `w` (R105). -/
def sampled (w : Word) (d : Nat → Level) : Nat → Word
  | 0 => w
  | n + 1 => shiftIn (sampled w d n) (d n)

/-- Of up to sixteen samples the last is in bit 0 and each earlier one a place higher (R100). -/
theorem sampled_getLsbD (w : Word) (d : Nat → Level) {k n : Nat} (hk : k < n) (hn : n ≤ 16) :
    (sampled w d n).getLsbD (n - 1 - k) = d k := by
  induction n with
  | zero => omega
  | succ n ih =>
    rcases Nat.lt_succ_iff_lt_or_eq.mp hk with hlt | rfl
    · rw [show n + 1 - 1 - k = n - 1 - k + 1 by omega, sampled, shiftIn_getLsbD_succ _ _ (by omega)]
      exact ih hlt (by omega)
    · rw [Nat.add_sub_cancel, Nat.sub_self]
      exact shiftIn_getLsbD_zero _ _

/-! ## The instants -/

theorem clkFallAt_le_clkRiseAt (u : Nat) (e : Nat → Nat) (k : Nat) : clkFallAt u e k ≤ clkRiseAt u e k :=
  Nat.le_add_right _ _

theorem clkFallAt_mono (u : Nat) (e : Nat → Nat) : Monotone (clkFallAt u e) :=
  monotone_nat_of_le_succ fun k => (clkFallAt_le_clkRiseAt u e k).trans (clkRiseAt_le_clkFallAt u e k.lt_succ_self)

/-- Fall `k` comes after the latch pulse and `2k` half cycles, each with its draw. -/
theorem clkFallAt_eq (u : Nat) (e : Nat → Nat) (k : Nat) :
    clkFallAt u e k = 12 * u + 12 * k * u + ∑ j ∈ Finset.range (2 * k + 1), e j := by
  induction k with
  | zero => simp [clkFallAt]
  | succ k ih =>
    rw [clkFallAt, ih, show 2 * (k + 1) + 1 = 2 * k + 1 + 1 + 1 by ring, Finset.sum_range_succ e (2 * k + 1 + 1),
      Finset.sum_range_succ e (2 * k + 1)]
    ring

/-! ## The states of a read -/

/-- Fall `k` of CLK in a read that starts in `s`, in ticks from its start. -/
def fallOf (s : State) (k : Nat) : Nat := clkFallAt s.par.ticksPerUs (drawn s) k

/-- Rise `k` of CLK in a read that starts in `s`, in ticks from its start. -/
def riseOf (s : State) (k : Nat) : Nat := clkRiseAt s.par.ticksPerUs (drawn s) k

/-- The ticks of delay number `j` of a read that starts in `s`, one of the half cycles of CLK. -/
def halfCycle (s : State) (j : Nat) : Nat := 6 * s.par.ticksPerUs + drawn s j

theorem riseOf_eq (s : State) (k : Nat) : riseOf s k = fallOf s k + halfCycle s (2 * k + 1) := rfl

theorem fallOf_succ (s : State) (k : Nat) : fallOf s (k + 1) = riseOf s k + halfCycle s (2 * k + 2) := rfl

theorem fallOf_sixteen (s : State) : fallOf s 16 = riseOf s 15 + halfCycle s 32 := rfl

theorem fallOf_mono (s : State) {j k : Nat} (h : j ≤ k) : fallOf s j ≤ fallOf s k := clkFallAt_mono _ _ h

theorem riseOf_le_fallOf (s : State) {j k : Nat} (h : j < k) : riseOf s j ≤ fallOf s k := clkRiseAt_le_clkFallAt _ _ h

/-- The levels that a read started in `s` samples (R108). -/
def dataAtFall (s : State) (k : Nat) : Level := s.env.dataAt (s.now + fallOf s k)

/-- The state at address `a` of the clock loop in a read that started in `s`: so many ticks later, with so many
samples taken and delays made. -/
def inRead (s : State) (ticks samples delays : Nat) (clk : Level) (a : Addr) : State :=
  { s with now := s.now + ticks, shreg := sampled s.shreg (dataAtFall s) samples,
           bitcnt := BitVec.ofNat 5 samples, latch := false, clk := clk, dlyRem := 0,
           drawIx := s.drawIx + delays, seq := a }

/-- The state right after LATCH has risen. -/
def afterLatchRise (s : State) : State := { s with latch := true, seq := 0x11 }

/-- The state right after LATCH has fallen. -/
def afterLatchFall (s : State) : State :=
  { s with now := s.now + fallOf s 0, latch := false, dlyRem := 0, drawIx := s.drawIx + 1, seq := 0x13 }

/-- The state right after fall `k` of CLK. -/
def afterFall (s : State) (k : Nat) : State := inRead s (fallOf s k) k (2 * k + 1) false 0x15

/-- The state right after rise `k` of CLK. -/
def afterRise (s : State) (k : Nat) : State := inRead s (riseOf s k) (k + 1) (2 * k + 2) true 0x18

/-- The state in which a read that started in `s` has returned. -/
def readDone (s : State) : State :=
  { inRead s (fallOf s 16) 16 33 true s.lr with snap := sampled s.shreg (dataAtFall s) 16 }

/-- Counts that fit BITCNT are told apart by it. -/
theorem ofNat_ne_of_lt {m n : Nat} (hm : m < 2 ^ 5) (hn : n < 2 ^ 5) (h : m ≠ n) :
    BitVec.ofNat 5 m ≠ BitVec.ofNat 5 n := by
  rwa [ne_eq, ← BitVec.toNat_inj, BitVec.toNat_ofNat, BitVec.toNat_ofNat, Nat.mod_eq_of_lt hm, Nat.mod_eq_of_lt hn]

/-- What a read starts from. -/
structure ReadStart (s : State) : Prop where
  fixed_store : s.csLoad = []
  at_entry : s.seq = 0x10
  quiet : Quiet s

section Read

variable {s : State} {k : Nat}

/-- A half cycle of CLK: the delay at `a`, with the draw of its number. -/
theorem ReadStart.steady_half_cycle (h : ReadStart s) {a : Addr} (ticks samples j : Nat) (clk : Level)
    (hlisted : (romWord a.toNat).map decode = some (.ok (.dly 6))) (hne : a ≠ 0x1F) :
    Steady (false, clk) (halfCycle s j + 2) (inRead s ticks samples j clk a)
      (inRead s (ticks + halfCycle s j) samples (j + 1) clk (a + 1)) := by
  obtain ⟨hbusy, hrun, -⟩ := h.quiet
  have hsel : (inRead s ticks samples j clk a).Selects (.dly 6) := State.selects_of_listed h.fixed_store hlisted
  have hdelay := steady_delay hsel hbusy hrun hne
  unfold inRead at hdelay ⊢
  rw [← Nat.add_assoc s.now]
  exact hdelay

/-- The latch pulse, from the first step to the step that ends it. -/
theorem ReadStart.steady_latch_pulse (h : ReadStart s) :
    Steady (true, s.clk) (3 + fallOf s 0) (afterLatchRise s) (afterLatchFall s) := by
  obtain ⟨hbusy, hrun, -⟩ := h.quiet
  have hsel : (afterLatchRise s).Selects (.dly 12) := State.selects_of_listed h.fixed_store rfl
  have hdelay := steady_delay hsel hbusy hrun (by decide : (0x11 : Addr) ≠ 0x1F)
  rw [Nat.add_comm 3]
  exact hdelay.trans (.of_step rfl (step_at_latch_fall h.fixed_store rfl))

/-- From the end of the latch pulse to the first fall of CLK. -/
theorem ReadStart.steady_first_fall (h : ReadStart s) :
    Steady (false, s.clk) 2 (afterLatchFall s) (afterFall s 0) :=
  .cons rfl (step_at_clrc (s := afterLatchFall s) h.fixed_store rfl)
    (.of_step rfl (step_at_clk_fall (s := { afterLatchFall s with bitcnt := 0, seq := 0x14 }) h.fixed_store rfl))

/-- SMPL in pass `k` of the loop. -/
theorem ReadStart.step_sample (h : ReadStart s) (hk : k < 16) :
    step (afterFall s k) = .next (inRead s (fallOf s k) (k + 1) (2 * k + 1) false 0x16) := by
  have hfits : (afterFall s k).bitcnt ≠ 31 := ofNat_ne_of_lt (n := 31) (by omega) (by decide) (by omega)
  rw [step_at_smpl (s := afterFall s k) h.fixed_store rfl hfits]
  unfold inRead
  rw [BitVec.ofNat_add]
  rfl

/-- The low half of cycle `k`. -/
theorem ReadStart.steady_low (h : ReadStart s) (hk : k < 16) :
    Steady (false, false) (4 + halfCycle s (2 * k + 1)) (afterFall s k) (afterRise s k) := by
  have hdelay := h.steady_half_cycle (a := 0x16) (fallOf s k) (k + 1) (2 * k + 1) false rfl (by decide)
  have hrise := step_at_clk_rise (s := inRead s (riseOf s k) (k + 1) (2 * k + 2) false 0x17) h.fixed_store rfl
  rw [Nat.add_comm 4]
  exact .cons rfl (h.step_sample hk) (hdelay.trans (.of_step rfl hrise))

/-- The high half of cycle `k`, as far as LOOP. -/
theorem ReadStart.steady_high (h : ReadStart s) :
    Steady (false, true) (halfCycle s (2 * k + 2) + 2) (afterRise s k)
      (inRead s (fallOf s (k + 1)) (k + 1) (2 * (k + 1) + 1) true 0x19) :=
  h.steady_half_cycle (a := 0x18) (riseOf s k) (k + 1) (2 * k + 2) true rfl (by decide)

/-- From rise `k` of CLK to the next fall. -/
theorem ReadStart.steady_to_next_fall (h : ReadStart s) (hk : k < 15) :
    Steady (false, true) (4 + halfCycle s (2 * k + 2)) (afterRise s k) (afterFall s (k + 1)) := by
  have hmore : BitVec.ofNat 5 (k + 1) ≠ 16 := ofNat_ne_of_lt (n := 16) (by omega) (by decide) (by omega)
  have hloop := step_at_loop_again (s := inRead s (fallOf s (k + 1)) (k + 1) (2 * (k + 1) + 1) true 0x19)
    h.fixed_store rfl hmore
  have hfall := step_at_clk_fall (s := inRead s (fallOf s (k + 1)) (k + 1) (2 * (k + 1) + 1) true 0x14)
    h.fixed_store rfl
  rw [Nat.add_comm 4]
  exact h.steady_high.trans (.cons rfl hloop (.of_step rfl hfall))

/-- From the last rise of CLK to the return. -/
theorem ReadStart.steady_to_return (h : ReadStart s) :
    Steady (false, true) (5 + halfCycle s 32) (afterRise s 15) (readDone s) := by
  have hloop := step_at_loop_done (s := inRead s (fallOf s 16) 16 33 true 0x19) h.fixed_store rfl rfl
  have hcapt := step_at_capt (s := inRead s (fallOf s 16) 16 33 true 0x1A) h.fixed_store rfl
  have hret := step_at_ret (s := { readDone s with seq := 0x1B }) h.fixed_store rfl
  rw [Nat.add_comm 5]
  exact h.steady_high.trans (.cons rfl hloop (.cons rfl hcapt (.of_step rfl hret)))

/-! ## The run from the start to each edge -/

theorem ReadStart.run_to_latch_rise (h : ReadStart s) : steps 1 s = .next (afterLatchRise s) :=
  (steps_one s).trans (step_at_latch_rise h.fixed_store h.at_entry)

theorem ReadStart.run_to_latch_fall (h : ReadStart s) : steps (4 + fallOf s 0) s = .next (afterLatchFall s) := by
  rw [show 4 + fallOf s 0 = 1 + (3 + fallOf s 0) by omega]
  exact (steps_add _ h.run_to_latch_rise).trans h.steady_latch_pulse.run

/-- From a fall of CLK to the rise after it. -/
theorem ReadStart.run_low (h : ReadStart s) (hk : k < 16)
    (hfall : steps (6 + 8 * k + fallOf s k) s = .next (afterFall s k)) :
    steps (10 + 8 * k + riseOf s k) s = .next (afterRise s k) := by
  rw [riseOf_eq, show 10 + 8 * k + (fallOf s k + halfCycle s (2 * k + 1)) =
    6 + 8 * k + fallOf s k + (4 + halfCycle s (2 * k + 1)) by omega]
  exact (steps_add _ hfall).trans (h.steady_low hk).run

theorem ReadStart.run_to_fall (h : ReadStart s) (hk : k < 16) :
    steps (6 + 8 * k + fallOf s k) s = .next (afterFall s k) := by
  induction k with
  | zero =>
    rw [show 6 + 8 * 0 + fallOf s 0 = 4 + fallOf s 0 + 2 by omega]
    exact (steps_add _ h.run_to_latch_fall).trans h.steady_first_fall.run
  | succ k ih =>
    have hrise := h.run_low (by omega) (ih (by omega))
    rw [fallOf_succ, show 6 + 8 * (k + 1) + (riseOf s k + halfCycle s (2 * k + 2)) =
      10 + 8 * k + riseOf s k + (4 + halfCycle s (2 * k + 2)) by omega]
    exact (steps_add _ hrise).trans (h.steady_to_next_fall (by omega)).run

theorem ReadStart.run_to_rise (h : ReadStart s) (hk : k < 16) :
    steps (10 + 8 * k + riseOf s k) s = .next (afterRise s k) := h.run_low hk (h.run_to_fall hk)

theorem ReadStart.run_to_return (h : ReadStart s) : steps (135 + fallOf s 16) s = .next (readDone s) := by
  rw [fallOf_sixteen, show 135 + (riseOf s 15 + halfCycle s 32) =
    10 + 8 * 15 + riseOf s 15 + (5 + halfCycle s 32) by omega]
  exact (steps_add _ (h.run_to_rise (by omega))).trans h.steady_to_return.run

/-! ## The host lines between the edges (R109) -/

theorem ReadStart.lines_in_pulse (h : ReadStart s) {n : Nat} (h1 : 1 ≤ n) (hn : n ≤ 3 + fallOf s 0) :
    LinesAfter s n (true, s.clk) :=
  h.steady_latch_pulse.lines_after h.run_to_latch_rise h1 (by omega)

theorem ReadStart.lines_before_first_fall (h : ReadStart s) {n : Nat} (h4 : 4 + fallOf s 0 ≤ n)
    (hn : n < 6 + fallOf s 0) : LinesAfter s n (false, s.clk) :=
  h.steady_first_fall.lines_after h.run_to_latch_fall h4 (by omega)

theorem ReadStart.lines_in_low (h : ReadStart s) (hk : k < 16) {n : Nat} (hfall : 6 + 8 * k + fallOf s k ≤ n)
    (hrise : n ≤ 9 + 8 * k + riseOf s k) : LinesAfter s n (false, false) :=
  (h.steady_low hk).lines_after (h.run_to_fall hk) hfall (by rw [riseOf_eq] at hrise; omega)

/-- Between rise `k` and the next fall, or the end of the read. -/
theorem ReadStart.lines_in_high (h : ReadStart s) (hk : k < 16) {n : Nat} (hrise : 10 + 8 * k + riseOf s k ≤ n)
    (hfall : k < 15 → n < 6 + 8 * (k + 1) + fallOf s (k + 1)) (hn : n ≤ 135 + fallOf s 16) :
    LinesAfter s n (false, true) := by
  by_cases hk15 : k < 15
  · have hlt := hfall hk15
    rw [fallOf_succ] at hlt
    exact (h.steady_to_next_fall hk15).lines_after (h.run_to_rise hk) hrise (by omega)
  · obtain rfl : k = 15 := by omega
    rcases Nat.lt_or_eq_of_le hn with hlt | rfl
    · rw [fallOf_sixteen] at hlt
      exact h.steady_to_return.lines_after (h.run_to_rise hk) hrise (by omega)
    · exact ⟨_, h.run_to_return, rfl⟩

/-! ## Which interval a step is in -/

/-- After `n` steps of a read CLK is to be low. -/
def ClkIsLow (s : State) (n : Nat) : Prop :=
  ∃ k, k < 16 ∧ 6 + 8 * k + fallOf s k ≤ n ∧ n ≤ 9 + 8 * k + riseOf s k

/-- The last of `N + 1` instants that has come. -/
theorem exists_last_le {f : Nat → Nat} {n : Nat} (N : Nat) (h : f 0 ≤ n) :
    ∃ k, k ≤ N ∧ f k ≤ n ∧ (k < N → n < f (k + 1)) :=
  ⟨Nat.findGreatest (f · ≤ n) N, Nat.findGreatest_le N,
    Nat.findGreatest_spec (P := (f · ≤ n)) (Nat.zero_le N) h,
    fun hk => not_le.mp (Nat.findGreatest_is_greatest (P := (f · ≤ n)) (Nat.lt_succ_self _) hk)⟩

theorem not_clkIsLow_before {n : Nat} (hn : n < 6 + fallOf s 0) : ¬ ClkIsLow s n := by
  rintro ⟨j, -, hfall, -⟩
  have := fallOf_mono s (Nat.zero_le j)
  omega

theorem not_clkIsLow_between {n : Nat} (hrise : 10 + 8 * k + riseOf s k ≤ n)
    (hfall : k < 15 → n < 6 + 8 * (k + 1) + fallOf s (k + 1)) : ¬ ClkIsLow s n := by
  rintro ⟨j, hj, hlow, hhigh⟩
  rcases Nat.lt_trichotomy j k with hlt | rfl | hgt
  · have := riseOf_le_fallOf s hlt
    rw [riseOf_eq s k] at hrise
    omega
  · omega
  · have := fallOf_mono s (show k + 1 ≤ j from hgt)
    have := hfall (by omega)
    omega

/-- From the first fall on, every step is in one of the sixteen cycles: the last that has begun. -/
theorem exists_cycle {n : Nat} (hn : 6 + fallOf s 0 ≤ n) :
    ∃ k, k < 16 ∧ 6 + 8 * k + fallOf s k ≤ n ∧ (k < 15 → n < 6 + 8 * (k + 1) + fallOf s (k + 1)) := by
  obtain ⟨k, hk, hle, hlt⟩ := exists_last_le (f := fun k => 6 + 8 * k + fallOf s k) 15 (by simpa using hn)
  exact ⟨k, by omega, hle, hlt⟩

/-- In every state of a read LATCH is high in the pulse only, and CLK low in the sixteen low halves only. -/
theorem ReadStart.waveform (h : ReadStart s) (hlatch : s.latch = false) (hclk : s.clk = true) {n : Nat}
    (hn : n ≤ 135 + fallOf s 16) : ∃ t, steps n s = .next t ∧
      (t.latch = true ↔ 1 ≤ n ∧ n ≤ 3 + fallOf s 0) ∧ (t.clk = false ↔ ClkIsLow s n) := by
  suffices ∃ latch clk, LinesAfter s n (latch, clk) ∧ (latch = true ↔ 1 ≤ n ∧ n ≤ 3 + fallOf s 0) ∧
      (clk = false ↔ ClkIsLow s n) by
    obtain ⟨_, _, ⟨t, ht, hlines⟩, hiff⟩ := this
    obtain ⟨rfl, rfl⟩ := Prod.mk.inj hlines
    exact ⟨t, ht, hiff⟩
  by_cases hcycle : 6 + fallOf s 0 ≤ n
  · obtain ⟨k, hk, hfall, hnext⟩ := exists_cycle hcycle
    have hpulse : ¬ (1 ≤ n ∧ n ≤ 3 + fallOf s 0) := by omega
    by_cases hrise : n ≤ 9 + 8 * k + riseOf s k
    · exact ⟨_, _, h.lines_in_low hk hfall hrise, by simp [hpulse], by simpa using ⟨k, hk, hfall, hrise⟩⟩
    · have hhigh : 10 + 8 * k + riseOf s k ≤ n := by omega
      exact ⟨_, _, h.lines_in_high hk hhigh hnext hn, by simp [hpulse], by
        simpa using not_clkIsLow_between hhigh hnext⟩
  · have hlow : ¬ ClkIsLow s n := not_clkIsLow_before (by omega)
    rcases Nat.eq_zero_or_pos n with rfl | hpos
    · exact ⟨_, _, ⟨s, rfl, rfl⟩, by simp [hlatch], by simp [hclk, hlow]⟩
    · by_cases hpulse : n ≤ 3 + fallOf s 0
      · exact ⟨_, _, h.lines_in_pulse hpos hpulse, by simpa using ⟨hpos, hpulse⟩, by simp [hclk, hlow]⟩
      · exact ⟨_, _, h.lines_before_first_fall (by omega) (by omega), by simp [hpulse], by simp [hclk, hlow]⟩

end Read

end Sys2Proof.Safety
end

section
/-! PROOFS. The obligations of spec/40_host_reader.md: the HostReader operations (R101 to R107), one read (R108), and
the host lines outside it (R109). -/

namespace Sys2Proof.Proofs.HostReader

open Sys2Proof Sys2Proof.Machine Sys2Proof.Safety

/-- Settles O13: the load draws the overrun, and the run through the wait to the completion is that many ticks. -/
theorem dlyTakesItsTicks : Obligations.DlyTakesItsTicks := by
  intro us s w hf hd hb hw hne
  exact ⟨s.overrun, s.drawIx + 1, s.overrun_le, (steady_delay ⟨w, hf, hd⟩ hb hw hne).run⟩

/-- Settles O47, by the two line clauses of the run invariant. -/
theorem hostLinesRestOutsideRead : Obligations.HostLinesRestOutsideRead := by
  intro t ht
  obtain ⟨hlatch, hclk⟩ := (runInv_of_reachable ht).linesInv
  refine ⟨fun hout => ?_, hlatch, hclk.trans (by omega)⟩
  unfold InRoutine at hout
  rw [← Bool.not_eq_true, hlatch, ← Bool.not_eq_false, hclk]
  omega

/-- Settles O50: the run through the sixteen cycles to the return, and the word that its samples make. -/
theorem hostReaderTakesSnapshot : Obligations.HostReaderTakesSnapshot := by
  intro s hs ha hq fall
  exact ⟨readDone s, ReadStart.run_to_return ⟨hs, ha, hq⟩, fun k hk => sampled_getLsbD _ _ hk (Nat.le_refl 16), rfl⟩

/-- Settles O51: the levels between the edges, and the states right after the edges. -/
theorem hostReaderWaveform : Obligations.HostReaderWaveform := by
  intro s hs ha hq hlatch hclk fall rise
  have h : ReadStart s := ⟨hs, ha, hq⟩
  exact ⟨fun n hn => h.waveform hlatch hclk hn, ⟨_, h.run_to_latch_rise, rfl⟩, ⟨_, h.run_to_latch_fall, rfl⟩,
    fun k hk => ⟨⟨_, h.run_to_fall hk, rfl⟩, ⟨_, h.run_to_rise hk, rfl⟩⟩⟩

/-- Settles O10: both words, the operand check on every other, and the advance of the state with the line driven. -/
theorem sethDrivesLineHigh : Obligations.SethDrivesLineHigh := by
  refine ⟨by decide, by decide, fun arg h8 h9 => (decode_wordOf_seth arg).trans (decodePin_reserved h8 h9),
    fun s hne => ⟨?_, ?_⟩⟩
  · exact State.advance_eq_next (s := { s with latch := true }) hne
  · exact State.advance_eq_next (s := { s with clk := true }) hne

/-- Settles O11, as for SETH with the other level. -/
theorem setlDrivesLineLow : Obligations.SetlDrivesLineLow := by
  refine ⟨by decide, by decide, fun arg h8 h9 => (decode_wordOf_setl arg).trans (decodePin_reserved h8 h9),
    fun s hne => ⟨?_, ?_⟩⟩
  · exact State.advance_eq_next (s := { s with latch := false }) hne
  · exact State.advance_eq_next (s := { s with clk := false }) hne

/-- Settles O12, by the three parts of DLY. -/
theorem dlyLoadsWaitsCompletes : Obligations.DlyLoadsWaitsCompletes :=
  fun _ s => ⟨fun hb => ⟨s.overrun, s.drawIx + 1, s.overrun_le, exec_dly_load hb⟩, exec_dly_done, exec_dly_tick⟩

/-- Settles O14. -/
theorem clrcClearsCount : Obligations.ClrcClearsCount :=
  ⟨by decide, fun s hne => State.advance_eq_next (s := { s with bitcnt := 0 }) hne⟩

/-- Settles O15: the bits of the shifted word, and the count of the sample. -/
theorem smplShiftsDataIn : Obligations.SmplShiftsDataIn := by
  refine ⟨by decide, fun s hne => ?_⟩
  obtain ⟨b, d, hcount, heq⟩ := State.countSample_spec { s with shreg := shiftIn s.shreg (s.pin .data) }
  refine ⟨_, b, d, shiftIn_getLsbD_zero _ _, fun k hk => shiftIn_getLsbD_succ _ _ hk, hcount, ?_⟩
  exact (congrArg State.advance heq).trans (State.advance_eq_next hne)

/-- Settles O16, branch by branch. -/
theorem loopUntilSixteen : Obligations.LoopUntilSixteen :=
  ⟨by decide, fun _ _ => ⟨fun hb => if_neg hb, fun hb hne => (if_pos hb).trans (State.advance_eq_next hne)⟩⟩

/-- Settles O17. -/
theorem captCopiesShiftRegister : Obligations.CaptCopiesShiftRegister :=
  ⟨by decide, fun s hne => State.advance_eq_next (s := { s with snap := s.shreg }) hne⟩

/-- Settles O58: an interval is its delay with the draw of it, and fall `k` comes after the sum of `2k + 1` draws. -/
theorem overrunsOnlyLengthenARead : Obligations.OverrunsOnlyLengthenARead := by
  intro s u k slack fall rise
  have hdrawn (j : Nat) : drawn s j ≤ slack := State.overrun_le _
  have hsum (n : Nat) : ∑ j ∈ Finset.range n, drawn s j ≤ n * slack := by
    simpa using Finset.sum_le_card_nsmul (Finset.range n) (drawn s) slack fun j _ => hdrawn j
  have hfall (n : Nat) : fall n = 12 * u + 12 * n * u + ∑ j ∈ Finset.range (2 * n + 1), drawn s j :=
    clkFallAt_eq u (drawn s) n
  have hzero : fall 0 = 12 * u + drawn s 0 := rfl
  have hrise : rise k = fall k + (6 * u + drawn s (2 * k + 1)) := rfl
  have hnext : fall (k + 1) = rise k + (6 * u + drawn s (2 * k + 2)) := rfl
  have hk := hsum (2 * k + 1)
  refine ⟨hdrawn, ?_, ?_, ?_, ?_, fun hslack => ?_⟩
  · have := hdrawn 0
    omega
  · have := hdrawn (2 * k + 1)
    omega
  · have := hdrawn (2 * k + 2)
    omega
  · have := hfall k
    omega
  · have h16 := hsum (2 * 16 + 1)
    have := hdrawn (2 * k + 1)
    have := hfall k
    have := hfall 16
    rw [hslack, Nat.mul_zero] at hk h16
    omega

end Sys2Proof.Proofs.HostReader
end

section
/-! SUPPORT. Where an operation leaves SEQ and LR (spec/10_state.md R21, R22), the operation that the fixed control
store lists at an address (spec/44_sequencer_control.md R164), the rule of LSEL (spec/41_layout_selector.md R120, R121),
and the way the sequencer goes once it is past the LSEL: always past the SEED, and never by another LSEL. -/

/-! ## Where an operation leaves SEQ and LR -/

namespace Sys2Proof

/-- The pairs of SEQ and LR that the operation at address `a`, with the link register at `link`, can leave. -/
def Instr.successors (i : Instr) (a link : Addr) : List (Addr × Addr) :=
  match i with
  | .dly _ => [(a, link), (a + 1, link)]
  | .loop b => [(a + 1, link), (b, link)]
  | .waitsel => [(Config.restartVec, link), (a + 1, link), (a, link)]
  | .jmp b => [(b, link)]
  | .call b => [(b, a + 1)]
  | .ret => [(link, link)]
  | _ => [(a + 1, link)]

end Sys2Proof

namespace Sys2Proof.Machine

open Sys2Proof

theorem exec_successor {i : Instr} {s t : State} (h : exec i s = .next t) :
    (t.seq, t.lr) ∈ i.successors s.seq s.lr := by
  have hinv := exec_inv h
  cases i with
  | seth _ | setl _ | loop _ | wdarm => rcases hinv with ⟨-, rfl⟩ | ⟨-, rfl⟩ <;> simp [Instr.successors]
  | dly _ =>
    rcases hinv with ⟨-, -, rfl⟩ | ⟨-, -, rfl⟩ | ⟨-, rfl⟩ <;> simp [Instr.successors, State.loadDelay]
  | waitsel =>
    rcases hinv with ⟨-, rfl⟩ | ⟨-, -, rfl⟩ | ⟨-, -, rfl⟩ <;> simp [Instr.successors, Config.restartVec]
  | smpl => obtain ⟨_, _, _, -, rfl⟩ := hinv; simp [Instr.successors]
  | lsel => obtain ⟨_, rfl⟩ := hinv; simp [Instr.successors]
  | seed | build => obtain ⟨_, -, rfl⟩ := hinv; simp [Instr.successors]
  | clrc | capt | wdstop | phrst | drive | phinc | jmp _ | call _ | ret =>
    simp only at hinv
    subst hinv
    simp [Instr.successors]

/-! ## The listing, address by address -/

/-- The listing of R164 as operations. -/
def listedAt (a : Addr) : Option Instr :=
  match a.toNat with
  | 0x00 => some (.call 0x10)
  | 0x01 => some .lsel
  | 0x02 => some .seed
  | 0x03 => some .wdstop
  | 0x04 => some .phrst
  | 0x05 => some (.call 0x10)
  | 0x06 => some .build
  | 0x07 => some .waitsel
  | 0x08 => some .drive
  | 0x09 => some .wdarm
  | 0x0A => some .phinc
  | 0x0B => some (.jmp 0x07)
  | 0x10 => some (.seth .latch)
  | 0x11 => some (.dly 12)
  | 0x12 => some (.setl .latch)
  | 0x13 => some .clrc
  | 0x14 => some (.setl .clk)
  | 0x15 => some .smpl
  | 0x16 => some (.dly 6)
  | 0x17 => some (.seth .clk)
  | 0x18 => some (.dly 6)
  | 0x19 => some (.loop 0x14)
  | 0x1A => some .capt
  | 0x1B => some .ret
  | _ => none

/-- The words of the fixed control store decode as listed. -/
theorem romWord_map_decode (a : Addr) : (romWord a.toNat).map decode = (listedAt a).map .ok := by
  revert a
  decide

/-- With the fixed control store a step that answers a next state is the execution of the operation listed at SEQ. -/
theorem exec_listed_of_step {s t : State} (hs : s.csLoad = []) (h : step s = .next t) :
    ∃ i, listedAt s.seq = some i ∧ exec i s = .next t := by
  have hdecode := romWord_map_decode s.seq
  unfold step at h
  rw [State.fetch_of_csLoad_nil hs] at h
  cases hw : romWord s.seq.toNat with
  | none => simp [hw] at h
  | some w =>
    cases hl : listedAt s.seq with
    | none => simp [hw, hl] at hdecode
    | some i =>
      simp only [hw, hl, Option.map_some, Option.some.injEq] at hdecode
      simp only [hw, hdecode] at h
      exact ⟨i, rfl, h⟩

/-! ## The layout: the rule of LSEL (R120, R121), and its one writer (R27) -/

/-- The rule on the bits of the word, where a pressed button reads 0 (R24). -/
theorem select_eq (pos : BtnPos) (w : Word) :
    select pos w = if w.getLsbD pos.left.val = false then .ab
                   else if w.getLsbD pos.right.val = false then .bc else .xc := by
  simp [select, pressed, lvl, BtnPos.at]

theorem codeOfLayout_select (pos : BtnPos) (w : Word) :
    codeOfLayout (select pos w) = if w.getLsbD pos.left.val = false then 1
                                  else if w.getLsbD pos.right.val = false then 0 else 2 := by
  rw [select_eq, apply_ite codeOfLayout, apply_ite codeOfLayout]
  rfl

/-- LSEL below the last address (R120). -/
theorem exec_lsel_eq_next {s : State} (hne : s.seq ≠ 0x1F) :
    exec .lsel s = .next { s with layout := codeOfLayout (select s.par.btnPos s.snap), seq := s.seq + 1 } :=
  State.advance_eq_next (s := { s with layout := codeOfLayout (select s.par.btnPos s.snap) }) hne

theorem exec_layout_of_ne_lsel {i : Instr} {s t : State} (h : exec i s = .next t) (hne : i ≠ .lsel) :
    t.layout = s.layout := by
  obtain ⟨-, -, -, -, hwriter, -⟩ := Proofs.StateRules.registersHaveTheirWriters i s t h
  exact not_imp_comm.mp hwriter hne

end Sys2Proof.Machine

namespace Sys2Proof.Safety

open Sys2Proof Sys2Proof.Machine

/-! ## Past the SEED and past the LSEL -/

/-- `Seeded`, as it depends on SEQ and LR. -/
abbrev SeededAt (a link : Addr) : Prop :=
  (0x03 ≤ a.toNat ∧ a.toNat ≤ 0x0B) ∨ ((0x10 ≤ a.toNat ∧ a.toNat ≤ 0x1B) ∧ link = 0x06)

theorem seeded_iff {s : State} : Seeded s ↔ SeededAt s.seq s.lr := Iff.rfl

/-- LSEL is listed once (R122). -/
theorem eq_of_listedAt_lsel {a : Addr} : listedAt a = some .lsel → a = 0x01 := by
  revert a
  decide

/-- From 0x02 to 0x0B the sequencer goes on, back to 0x03 or 0x07, or by the CALL at 0x05 into the routine with LR at
0x06. -/
theorem seededAt_successors_outside {a link : Addr} {i : Instr} (ha : 0x02 ≤ a.toNat ∧ a.toNat ≤ 0x0B)
    (hi : listedAt a = some i) : ∀ next ∈ i.successors a link, SeededAt next.1 next.2 := by
  obtain ⟨hlow, hhigh⟩ := ha
  rcases seq_cases_outside hhigh with rfl | rfl | rfl | rfl | rfl | rfl | rfl | rfl | rfl | rfl | rfl | rfl <;>
    cases hi <;> simp [Instr.successors, SeededAt, Config.restartVec] at hlow ⊢

/-- In the routine called from 0x05 the sequencer stays in it until RET takes it to 0x06. -/
theorem seededAt_successors_in_routine {a : Addr} {i : Instr} (ha : 0x10 ≤ a.toNat ∧ a.toNat ≤ 0x1B)
    (hi : listedAt a = some i) : ∀ next ∈ i.successors a 0x06, SeededAt next.1 next.2 := by
  rcases seq_cases_routine ha with (rfl | rfl | rfl) | rfl | rfl | rfl | rfl | rfl | rfl | rfl | rfl | rfl <;>
    cases hi <;> simp [Instr.successors, SeededAt]

section Step

variable {s t : State}

/-- Past the LSEL every step leaves the sequencer past the SEED (R165). -/
theorem LaidOut.seeded_of_step (h : LaidOut s) (hs : s.csLoad = []) (ht : step s = .next t) : Seeded t := by
  obtain ⟨i, hlisted, hexec⟩ := exec_listed_of_step hs ht
  have hnext := exec_successor hexec
  refine seeded_iff.mpr ?_
  rcases h with ha | ha | ⟨ha, hlink⟩
  · exact seededAt_successors_outside (by omega) hlisted _ hnext
  · exact seededAt_successors_outside (by omega) hlisted _ hnext
  · rw [hlink] at hnext
    exact seededAt_successors_in_routine ha hlisted _ hnext

/-- Past the LSEL no step is another LSEL, so LAYOUT stays (R122). -/
theorem LaidOut.layout_of_step (h : LaidOut s) (hs : s.csLoad = []) (ht : step s = .next t) :
    t.layout = s.layout := by
  obtain ⟨i, hlisted, hexec⟩ := exec_listed_of_step hs ht
  refine exec_layout_of_ne_lsel hexec ?_
  rintro rfl
  simp [LaidOut, Seeded, InRoutine, eq_of_listedAt_lsel hlisted] at h

end Step

end Sys2Proof.Safety
end

section
/-! PROOFS. The obligations of spec/41_layout_selector.md: the rule that LSEL follows (R120, R121), and the layout kept
from then on (R122). -/

namespace Sys2Proof.Proofs.LayoutSelector

open Sys2Proof Sys2Proof.Machine Sys2Proof.Safety

/-- Settles O49, by induction on the run: the run invariant holds the control store fixed, and with it each step keeps
the place past the LSEL and the layout. -/
theorem layoutNeverReassigned : Obligations.LayoutNeverReassigned := by
  intro s t hinv hlaid hreach
  obtain ⟨-, hlayout, hlaid'⟩ := reaches_induction
    (P := fun u => RunInv u ∧ u.layout = s.layout ∧ LaidOut u)
    (fun u v ⟨hu, hlayout, hlaid⟩ huv => ⟨hu.of_step huv, (hlaid.layout_of_step hu.fixed_store huv).trans hlayout,
      .inr (hlaid.seeded_of_step hu.fixed_store huv)⟩)
    ⟨hinv, rfl, hlaid⟩ hreach
  exact ⟨hlayout, hlaid'⟩

/-- Settles O18: LSEL advances with the code of the layout it selects. -/
theorem lselChoosesLayout : Obligations.LselChoosesLayout := by
  refine ⟨by decide, fun s hne => ?_⟩
  rw [exec_lsel_eq_next hne, codeOfLayout_select]

/-- Settles O19: the rule names the bits of Left and Right and no other. -/
theorem selectReadsTwoBits : Obligations.SelectReadsTwoBits := by
  refine ⟨select_eq, fun pos v w hleft hright => ?_⟩
  rw [select_eq, select_eq, hleft, hright]

end Sys2Proof.Proofs.LayoutSelector
end

section
/-! SUPPORT. The entries of a schedule as numbers and as bits (spec/42_schedule_builder.md R128), the faces of a layout
(R126, R127), and what a rebuild answers (R131, R132). -/

namespace Sys2Proof.Machine

open Sys2Proof

/-! ## Six levels as an entry: element i is bit i (R63) -/

section Entry

variable (o0 o1 o2 o3 o4 o5 : Level)

theorem entryOf_toNat : (entryOf o0 o1 o2 o3 o4 o5).toNat =
    o0.toNat + 2 * o1.toNat + 4 * o2.toNat + 8 * o3.toNat + 16 * o4.toNat + 32 * o5.toNat := by
  revert o0 o1 o2 o3 o4 o5
  decide

theorem entryOf_and_low_nibble : entryOf o0 o1 o2 o3 o4 o5 &&& 0x0F = entryOf o0 o1 o2 o3 false false := by
  revert o0 o1 o2 o3 o4 o5
  decide

theorem entryOf_and_out2_out3 : entryOf o0 o1 o2 o3 o4 o5 &&& 0x0C = entryOf false false o2 o3 false false := by
  revert o0 o1 o2 o3 o4 o5
  decide

theorem entryOf_shiftRight_four : entryOf o0 o1 o2 o3 o4 o5 >>> 4 = entryOf o4 o5 false false false false := by
  revert o0 o1 o2 o3 o4 o5
  decide

end Entry

/-! ## The entries of `build` (R128) -/

section Build

variable (pos : BtnPos) (w : Word) (lay : Layout)

theorem entryDirections_toNat : (entryDirections pos w lay).toNat =
    (lvl pos w .up).toNat + 2 * (lvl pos w .down).toNat + 4 * (lvl pos w .left).toNat +
      8 * (lvl pos w .right).toNat + 16 * (ll pos w lay .b).toNat + 32 * (ll pos w lay .c).toNat :=
  entryOf_toNat ..

theorem entryUpDown_toNat : (entryUpDown pos w lay).toNat =
    (lvl pos w .up).toNat + 2 * (lvl pos w .down).toNat + 16 * (ll pos w lay .a).toNat +
      32 * (lvl pos w .start).toNat :=
  entryOf_toNat ..

theorem entryIdentify_toNat : (entryIdentify pos w lay).toNat =
    16 * (ll pos w lay .a).toNat + 32 * (lvl pos w .start).toNat := by
  simp [entryIdentify, entryOf_toNat]

theorem entryExtra_toNat : (entryExtra pos w lay).toNat =
    (ll pos w lay .z).toNat + 2 * (ll pos w lay .y).toNat + 4 * (ll pos w lay .x).toNat +
      8 * (lvl pos w .select).toNat + 16 * (ll pos w lay .b).toNat + 32 * (ll pos w lay .c).toNat :=
  entryOf_toNat ..

theorem entryConfirm_toNat : (entryConfirm pos w lay).toNat =
    15 + 16 * (ll pos w lay .a).toNat + 32 * (lvl pos w .start).toNat :=
  entryOf_toNat ..

/-- The literals of entries 1, 5 and 7 are on the lines whatever the buttons do (R129, R133 (2)). -/
theorem build_constant_bits :
    (build pos w lay).e1 &&& 0x0C = 0 ∧ (build pos w lay).e3 &&& 0x0C = 0 ∧
      (build pos w lay).e5 &&& 0x0F = 0 ∧ (build pos w lay).e7 &&& 0x0F = 0x0F :=
  ⟨entryOf_and_out2_out3 .., entryOf_and_out2_out3 .., entryOf_and_low_nibble .., entryOf_and_low_nibble ..⟩

/-- OUT4 and OUT5 of the odd entries are (A, Start) (R133 (3)). -/
theorem entries_share_a_start :
    entryUpDown pos w lay >>> 4 = entryIdentify pos w lay >>> 4 ∧
      entryUpDown pos w lay >>> 4 = entryConfirm pos w lay >>> 4 := by
  simp only [entryUpDown, entryIdentify, entryConfirm, entryOf_shiftRight_four, and_self]

/-- OUT4 and OUT5 of the even entries are (B, C) (R133 (3)). -/
theorem entries_share_b_c : entryDirections pos w lay >>> 4 = entryExtra pos w lay >>> 4 := by
  simp only [entryDirections, entryExtra, entryOf_shiftRight_four]

end Build

section Levels

variable {pos : BtnPos} {w : Word} {lay : Layout}

/-- `build` reads nothing of a word but the levels of the twelve buttons (R133 (6)). -/
theorem build_congr {v : Word} (h : ∀ btn, lvl pos v btn = lvl pos w btn) : build pos v lay = build pos w lay := by
  simp only [build, entryDirections, entryUpDown, entryIdentify, entryExtra, entryConfirm, ll, h]

/-- Every button of 0xFFFF is released, wherever BTNPOS puts it. -/
theorem lvl_all_released (pos : BtnPos) (btn : Button) : lvl pos 0xFFFF btn = true :=
  BitVec.getLsbD_allOnes.trans (decide_eq_true (pos.at btn).isLt)

/-- The idle schedule (R131, R133 (5)). -/
theorem build_all_released (pos : BtnPos) (lay : Layout) :
    build pos 0xFFFF lay = ⟨0x3F, 0x33, 0x3F, 0x33, 0x3F, 0x30, 0x3F, 0x3F⟩ := by
  simp only [build, entryDirections, entryUpDown, entryIdentify, entryExtra, entryConfirm, ll, lvl_all_released]
  rfl

/-! ## The faces of a layout (R126, R127) -/

/-- No two logical buttons read the same physical button (R126). -/
theorem phys_injective (lay : Layout) : Function.Injective (phys lay) := by
  intro p q
  cases lay <;> cases p <;> cases q <;> decide

theorem ll_eq_false_iff {face : Logical} : ll pos w lay face = false ↔ pressed pos w (phys lay face) = true := by
  simp [ll, pressed]

/-- With one physical button pressed, the logical button that reads it is asserted and no other (R133 (4)). -/
theorem ll_asserted_iff_of_only_pressed {face : Logical}
    (h : ∀ btn, pressed pos w btn = true ↔ btn = phys lay face) (other : Logical) :
    ll pos w lay other = false ↔ other = face := by
  rw [ll_eq_false_iff, h, (phys_injective lay).eq_iff]

end Levels

/-! ## The rebuild of the schedule -/

section Rebuild

variable {s : State} (w : Word)

theorem State.rebuild_eq_next {lay : Layout} (hl : s.layout = codeOfLayout lay) (hne : s.seq ≠ 0x1F) :
    s.rebuild w = .next { s with sched := build s.par.btnPos w lay, seq := s.seq + 1 } :=
  (State.rebuild_eq_advance (layoutOfCode_eq_some.mpr hl)).trans (State.advance_eq_next hne)

/-- Code 3 names no layout, wherever SEQ stands (R83, R125). -/
theorem State.rebuild_eq_refused (hl : s.layout = 3) : s.rebuild w = .refused .reservedLayout := by
  simp [State.rebuild, layoutOfCode, hl]

end Rebuild

end Sys2Proof.Machine
end

section
/-! PROOFS. The obligations of spec/42_schedule_builder.md: the function `build` (R125 to R128) with the properties of
its schedules (R133), and the operations SEED and BUILD (R131, R132). -/

namespace Sys2Proof.Proofs.ScheduleBuilder

open Sys2Proof Sys2Proof.Machine

/-- Settles O20: the entries are sums of levels, and under each layout the faces read the buttons of its column. -/
theorem buildEntriesAsNumbers : Obligations.BuildEntriesAsNumbers := by
  intro pos w lay
  cases lay <;>
    exact ⟨entryDirections_toNat .., entryUpDown_toNat .., entryIdentify_toNat .., entryExtra_toNat ..,
      entryConfirm_toNat .., rfl, rfl, rfl⟩

/-- Settles O21, property by property; A is what logical A reads under BC, and B under XC. -/
theorem scheduleStructure : Obligations.ScheduleStructure := by
  intro pos _
  refine ⟨fun w lay => ?_, fun w honly => ll_asserted_iff_of_only_pressed honly,
    fun w honly => (ll_asserted_iff_of_only_pressed (face := .a) honly .a).mpr rfl, build_all_released pos,
    fun v w lay => build_congr⟩
  obtain ⟨hidentify, hconfirm⟩ := entries_share_a_start pos w lay
  exact ⟨⟨rfl, rfl, rfl⟩, build_constant_bits pos w lay, ⟨rfl, hidentify, hconfirm⟩,
    ⟨rfl, rfl, entries_share_b_c pos w lay⟩⟩

/-- Settles O24: SEED and BUILD are rebuilds; LSEL writes the code of a layout, and no other operation writes LAYOUT. -/
theorem reservedLayoutRefused : Obligations.ReservedLayoutRefused := by
  refine ⟨fun s hl => ⟨State.rebuild_eq_refused _ hl, State.rebuild_eq_refused _ hl⟩, fun i s t h hl => ?_⟩
  by_cases hi : i = .lsel
  · subst hi
    obtain ⟨lay, rfl⟩ := exec_inv h
    exact codeOfLayout_ne_three lay
  · rwa [exec_layout_of_ne_lsel h hi]

/-- Settles O22: under any legal layout the rebuild from the all-released word is the idle schedule. -/
theorem seedWritesIdleSchedule : Obligations.SeedWritesIdleSchedule := by
  refine ⟨by decide, fun s hl hne => ?_⟩
  obtain ⟨lay, hlay⟩ := layoutOfCode_isSome hl
  rw [← build_all_released s.par.btnPos lay]
  exact State.rebuild_eq_next _ (layoutOfCode_eq_some.mp hlay) hne

/-- Settles O23: the three codes are those of the three layouts. -/
theorem buildWritesSchedule : Obligations.BuildWritesSchedule :=
  ⟨by decide, fun s hne => ⟨fun h => State.rebuild_eq_next (lay := .bc) _ h hne,
    fun h => State.rebuild_eq_next (lay := .ab) _ h hne, fun h => State.rebuild_eq_next (lay := .xc) _ h hne⟩⟩

end Sys2Proof.Proofs.ScheduleBuilder
end

section
/-! SUPPORT. The wait at WAITSEL and the transition of a phase (spec/43_emulation_engine.md R141 to R148), each as one
run with its exact result: so many ticks that only count, the tick that expires (spec/60_exceptions.md R176), and the
five steps of an awaited level. From them the eight transitions of a cycle (R149). -/

namespace Sys2Proof.Machine

open Sys2Proof

/-! ## The awaited level (R141) -/

section Awaited

variable {active : Level} {n : Phase}

theorem awaited_of_even (h : n.toNat % 2 = 0) : awaited active n = active := if_pos h

theorem awaited_of_odd (h : n.toNat % 2 = 1) : awaited active n = !active := if_neg (by omega)

/-- Polarity alternates: the level of one phase never lets the next phase go on. -/
theorem awaited_ne_awaited_add_one : awaited active n ≠ awaited active (n + 1) := by
  revert active n
  decide

end Awaited

/-! ## The branches of WAITSEL (R143) -/

section Waitsel

variable {s : State}

theorem exec_waitsel_level (hr : s.restartReq = false) (hl : s.env.selAt s.now = awaited s.par.selActive s.phase)
    (hne : s.seq ≠ 0x1F) : exec .waitsel s = .next { s with seq := s.seq + 1 } := by
  simp [exec, execWaitsel, State.pin, hr, hl, State.advance_eq_next hne]

theorem exec_waitsel_tick (hr : s.restartReq = false) (hl : s.env.selAt s.now ≠ awaited s.par.selActive s.phase) :
    exec .waitsel s = .next s.tick := by
  simp [exec, execWaitsel, State.pin, hr, hl]

end Waitsel

/-! ## The entry that PHASE numbers (R64) -/

theorem Schedule.entry_eq (t : Schedule) (n : Phase) :
    t.entry n = if n = 0 then t.e0 else if n = 1 then t.e1 else if n = 2 then t.e2 else if n = 3 then t.e3
                else if n = 4 then t.e4 else if n = 5 then t.e5 else if n = 6 then t.e6 else t.e7 := by
  have hcases : n = 0 ∨ n = 1 ∨ n = 2 ∨ n = 3 ∨ n = 4 ∨ n = 5 ∨ n = 6 ∨ n = 7 := by
    revert n
    decide
  rcases hcases with rfl | rfl | rfl | rfl | rfl | rfl | rfl | rfl <;> rfl

/-! ## The tick with no delay in progress (R7, R176) -/

section Tick

variable {s : State}

/-- The state `n` ticks later, where neither an expiry nor a delay falls into them: the clock moves, and the count with
it when the timer runs. -/
def State.waited (s : State) (n : Nat) : State :=
  { s with now := s.now + n, wdCnt := if s.wdRun then s.wdCnt + n else s.wdCnt }

theorem State.waited_zero (s : State) : s.waited 0 = s := by simp [State.waited]

theorem State.waited_succ (s : State) (n : Nat) : s.waited (n + 1) = (s.waited n).waited 1 := by
  cases h : s.wdRun <;> simp [State.waited, h, Nat.add_assoc]

theorem State.waited_of_stopped (hw : s.wdRun = false) (n : Nat) : s.waited n = { s with now := s.now + n } := by
  simp [State.waited, hw]

theorem State.waited_of_running (hw : s.wdRun = true) (n : Nat) :
    s.waited n = { s with now := s.now + n, wdCnt := s.wdCnt + n } := by
  simp [State.waited, hw]

/-- A tick at which the timer does not expire. -/
theorem State.tick_eq_waited (hb : s.dlyBusy = false) (hc : s.wdRun = true → s.wdCnt + 1 ≠ s.par.wdTimeoutTicks) :
    s.tick = s.waited 1 := by
  rw [State.tick_frame, State.tick_dlyRem_of_idle hb]
  rcases s.tick_timer_spec with ⟨hw, hcnt, hreq⟩ | ⟨hw, hexp, -⟩ | ⟨hw, -, hcnt, hreq⟩
  · rw [hcnt, hreq, State.waited_of_stopped hw]
  · exact absurd hexp (hc hw)
  · rw [hcnt, hreq, State.waited_of_running hw]

/-- The tick at which the timer expires. -/
theorem State.tick_of_expiry (hb : s.dlyBusy = false) (hw : s.wdRun = true)
    (hexp : s.wdCnt + 1 = s.par.wdTimeoutTicks) :
    s.tick = { s with now := s.now + 1, wdCnt := 0, restartReq := true } := by
  rw [State.tick_frame, State.tick_dlyRem_of_idle hb]
  rcases s.tick_timer_spec with ⟨hoff, -⟩ | ⟨-, -, hcnt, hreq⟩ | ⟨-, hne, -⟩
  · exact absurd (hw.symm.trans hoff) (by decide)
  · rw [hcnt, hreq]
  · exact absurd hexp hne

end Tick

/-! ## WDARM in the phase loop (R146) -/

/-- Both cases of PHASE in one state. -/
theorem step_at_wdarm_eq {s : State} (hs : s.csLoad = []) (ha : s.seq = 0x09) :
    step s = .next { s with
      wdCnt := if s.phase = 0 then s.wdCnt else 0
      wdRun := if s.phase = 0 then s.wdRun else true
      seq := 0x0A } := by
  by_cases hp : s.phase = 0
  · rw [step_at_wdarm_phase_zero hs ha hp, if_pos hp, if_pos hp]
  · rw [step_at_wdarm hs ha hp, if_neg hp, if_neg hp]

end Sys2Proof.Machine

namespace Sys2Proof.Safety

open Sys2Proof Sys2Proof.Machine

/-! ## The wait -/

/-- The block waits at 0x07 of the fixed control store, with no restart pending and no delay in progress. -/
structure AtWaitsel (s : State) : Prop where
  fixed_store : s.csLoad = []
  at_loop_top : s.seq = 0x07
  not_pending : s.restartReq = false
  no_delay : s.dlyBusy = false

/-- SEL is away from the level that PHASE awaits for the `n` ticks from now. -/
def LevelAbsent (s : State) (n : Nat) : Prop :=
  ∀ k, k < n → s.env.selAt (s.now + k) ≠ awaited s.par.selActive s.phase

/-- Neither a stopped timer nor a count still below the timeout after `n` ticks expires within them (R176). -/
def NoExpiry (s : State) (n : Nat) : Prop := s.wdRun = true → s.wdCnt + n < s.par.wdTimeoutTicks

section Wait

variable {s : State} {n : Nat}

theorem AtWaitsel.waited (h : AtWaitsel s) (n : Nat) : AtWaitsel (s.waited n) := { h with }

/-- One tick at the end of a wait. -/
theorem AtWaitsel.step_waited (h : AtWaitsel s) (habs : LevelAbsent s (n + 1)) :
    step (s.waited n) = .next (s.waited n).tick :=
  step_at_waitsel_tick (s := s.waited n) h.fixed_store h.at_loop_top h.not_pending (habs n n.lt_succ_self)

/-- A wait in which the timer does not expire, by induction on its length. -/
theorem AtWaitsel.run_wait (h : AtWaitsel s) (habs : LevelAbsent s n) (hexp : NoExpiry s n) :
    steps n s = .next (s.waited n) := by
  induction n with
  | zero => rw [State.waited_zero]; rfl
  | succ n ih =>
    have hbefore := ih (fun k hk => habs k (by omega)) (fun hw => by have := hexp hw; omega)
    have hcount (hw : s.wdRun = true) : (s.waited n).wdCnt + 1 ≠ s.par.wdTimeoutTicks := by
      have := hexp hw
      simp only [State.waited_of_running hw]
      omega
    rw [steps_add 1 hbefore, steps_one, h.step_waited habs, State.tick_eq_waited (s := s.waited n) h.no_delay hcount,
      ← State.waited_succ s n]

/-- A wait that ends with the expiry, `n + 1` ticks from now, and the restart taken there (R150, R180). -/
theorem AtWaitsel.run_expiry (h : AtWaitsel s) (hw : s.wdRun = true)
    (hexp : s.wdCnt + (n + 1) = s.par.wdTimeoutTicks) (habs : LevelAbsent s (n + 1)) :
    steps (n + 2) s = .next { s with now := s.now + (n + 1), wdCnt := 0, restartReq := false, seq := 0x03 } := by
  have hwait := h.run_wait (n := n) (fun k hk => habs k (by omega)) (fun _ => by omega)
  have htick := h.step_waited habs
  rw [State.waited_of_running hw] at hwait htick
  rw [State.tick_of_expiry (s := { s with now := s.now + n, wdCnt := s.wdCnt + n }) h.no_delay hw hexp] at htick
  rw [steps_add 2 hwait, steps_succ 1 htick, steps_one]
  exact step_at_waitsel_restart h.fixed_store h.at_loop_top rfl

/-! ## The transition of a phase (R148) -/

/-- The state after the transition of the present phase: its entry is on the lines, the timer is armed from zero if the
phase is above 0, and PHASE has advanced. -/
def driven (s : State) : State :=
  { s with
    out := s.sched.entry s.phase
    wdCnt := if s.phase = 0 then s.wdCnt else 0
    wdRun := if s.phase = 0 then s.wdRun else true
    phase := s.phase + 1 }

/-- The words 0x07 to 0x0B, with the awaited level present. -/
theorem run_transition (hs : s.csLoad = []) (ha : s.seq = 0x07) (hr : s.restartReq = false)
    (hl : s.env.selAt s.now = awaited s.par.selActive s.phase) : steps 5 s = .next (driven s) := by
  calc steps 5 s
    _ = steps 4 { s with seq := 0x08 } := steps_succ 4 (step_at_waitsel_level hs ha hr hl)
    _ = steps 3 { s with out := s.sched.entry s.phase, seq := 0x09 } := steps_succ 3 (step_at_drive hs rfl)
    _ = steps 2 { driven s with phase := s.phase, seq := 0x0A } := steps_succ 2 (step_at_wdarm_eq hs rfl)
    _ = steps 1 { driven s with seq := 0x0B } := steps_succ 1 (step_at_phinc hs rfl)
    _ = .next { driven s with seq := 0x07 } := (steps_one _).trans (step_at_jmp hs rfl)
    _ = .next (driven s) := by rw [← ha]; rfl

/-- The wait for a level, and the transition at the instant at which it comes. -/
theorem AtWaitsel.run_to_level (h : AtWaitsel s) (habs : LevelAbsent s n) (hexp : NoExpiry s n)
    (hl : s.env.selAt (s.now + n) = awaited s.par.selActive s.phase) :
    steps (n + 5) s = .next (driven (s.waited n)) := by
  rw [steps_add 5 (h.run_wait habs hexp)]
  exact run_transition (s := s.waited n) h.fixed_store h.at_loop_top h.not_pending hl

end Wait

/-! ## The eight transitions of a cycle (R149) -/

/-- The state right after the transition made at the instant `at_ k` of level `k`, in a cycle that is waited for from
`s`. The timer of the cycle before runs on until the transition of phase 1 rearms it (R146). -/
def afterLevel (s : State) (at_ : Nat → Nat) (k : Nat) : State :=
  { s with
    now := at_ k
    out := s.sched.entry (BitVec.ofNat 3 k)
    phase := BitVec.ofNat 3 (k + 1)
    wdCnt := if k = 0 then (s.waited (at_ 0 - s.now)).wdCnt else 0
    wdRun := if k = 0 then s.wdRun else true }

/-- Where a cycle of eight levels begins, and how the levels come: in phase 0, at rising instants, each held until the
next, and none too late for the timer. -/
structure CycleStart (s : State) (at_ : Nat → Nat) : Prop where
  waiting : AtWaitsel s
  phase_zero : s.phase = 0
  now_le : s.now ≤ at_ 0
  absent_before : ∀ τ, s.now ≤ τ → τ < at_ 0 → s.env.selAt τ ≠ awaited s.par.selActive 0
  rising : ∀ k, k < 7 → at_ k < at_ (k + 1)
  level : ∀ k, k < 8 → s.env.selAt (at_ k) = awaited s.par.selActive (BitVec.ofNat 3 k)
  held : ∀ k, k < 7 → ∀ τ, at_ k ≤ τ → τ < at_ (k + 1) →
    s.env.selAt τ = awaited s.par.selActive (BitVec.ofNat 3 k)
  gap_lt : ∀ k, 1 ≤ k → k < 7 → at_ (k + 1) - at_ k < s.par.wdTimeoutTicks
  first_rearm : s.wdRun = true → s.wdCnt + (at_ 1 - s.now) < s.par.wdTimeoutTicks

section Cycle

variable {s : State} {at_ : Nat → Nat} {k : Nat}

theorem CycleStart.waiting_after (h : CycleStart s at_) (k : Nat) : AtWaitsel (afterLevel s at_ k) :=
  { h.waiting with }

/-- The level held since `at_ k` is not the one that the next phase awaits. -/
theorem CycleStart.absent_after (h : CycleStart s at_) (hk : k < 7) :
    LevelAbsent (afterLevel s at_ k) (at_ (k + 1) - at_ k) := by
  intro j hj
  have hheld := h.held k hk (at_ k + j) (by omega) (by omega)
  refine hheld.trans_ne ?_
  rw [show (afterLevel s at_ k).phase = BitVec.ofNat 3 k + 1 from BitVec.ofNat_add k 1]
  exact awaited_ne_awaited_add_one

/-- After level 0 the count of the cycle before is still short of the timeout; after a later level it starts from 0. -/
theorem CycleStart.noExpiry_after (h : CycleStart s at_) (hk : k < 7) :
    NoExpiry (afterLevel s at_ k) (at_ (k + 1) - at_ k) := by
  intro hw
  rcases Nat.eq_zero_or_pos k with rfl | hpos
  · have hrun : s.wdRun = true := hw
    have hnow := h.now_le
    have hrising : at_ 0 < at_ 1 := h.rising 0 hk
    have hfirst := h.first_rearm hrun
    simp only [afterLevel, State.waited_of_running hrun, if_pos, Nat.zero_add]
    omega
  · have hcnt : (afterLevel s at_ k).wdCnt = 0 := if_neg (by omega)
    rw [hcnt, Nat.zero_add]
    exact h.gap_lt k hpos hk

theorem CycleStart.driven_first (h : CycleStart s at_) :
    driven (s.waited (at_ 0 - s.now)) = afterLevel s at_ 0 := by
  have hnow : s.now + (at_ 0 - s.now) = at_ 0 := Nat.add_sub_cancel' h.now_le
  simp [driven, afterLevel, State.waited, h.phase_zero, hnow]

theorem CycleStart.driven_next (h : CycleStart s at_) (hk : k < 7) :
    driven ((afterLevel s at_ k).waited (at_ (k + 1) - at_ k)) = afterLevel s at_ (k + 1) := by
  have hnow : at_ k + (at_ (k + 1) - at_ k) = at_ (k + 1) := Nat.add_sub_cancel' (h.rising k hk).le
  have hphase : BitVec.ofNat 3 (k + 1) ≠ 0 := by
    rw [ne_eq, ← BitVec.toNat_inj, BitVec.toNat_ofNat, Nat.mod_eq_of_lt (by omega)]
    exact k.succ_ne_zero
  have hadvance : BitVec.ofNat 3 (k + 1) + 1 = BitVec.ofNat 3 (k + 1 + 1) := (BitVec.ofNat_add (k + 1) 1).symm
  simp only [driven, afterLevel, State.waited, hnow, if_neg hphase, hadvance, if_neg k.succ_ne_zero]

theorem CycleStart.le_instant (h : CycleStart s at_) (hk : k < 8) : s.now ≤ at_ k := by
  induction k with
  | zero => exact h.now_le
  | succ k ih =>
    have hrising := h.rising k (by omega)
    have hbefore := ih (by omega)
    omega

/-- The run to the transition of level `k`, by induction on the levels. -/
theorem CycleStart.run_to_level (h : CycleStart s at_) (hk : k < 8) :
    steps ((at_ k - s.now) + 5 * (k + 1)) s = .next (afterLevel s at_ k) := by
  induction k with
  | zero =>
    have hnow : s.now + (at_ 0 - s.now) = at_ 0 := Nat.add_sub_cancel' h.now_le
    have hrising : at_ 0 < at_ 1 := h.rising 0 (by omega)
    rw [← h.driven_first]
    refine h.waiting.run_to_level (fun j hj => ?_) (fun hw => ?_) ?_
    · rw [h.phase_zero]
      exact h.absent_before _ (by omega) (by omega)
    · have hfirst := h.first_rearm hw
      omega
    · rw [hnow, h.phase_zero]
      exact h.level 0 hk
  | succ k ih =>
    have hrising := h.rising k (by omega)
    have hle := h.le_instant (k := k) (by omega)
    have hnow : at_ k + (at_ (k + 1) - at_ k) = at_ (k + 1) := Nat.add_sub_cancel' hrising.le
    have hlevel : s.env.selAt (at_ k + (at_ (k + 1) - at_ k)) = awaited s.par.selActive (BitVec.ofNat 3 (k + 1)) := by
      rw [hnow]
      exact h.level (k + 1) hk
    rw [show at_ (k + 1) - s.now + 5 * (k + 1 + 1) =
        at_ k - s.now + 5 * (k + 1) + (at_ (k + 1) - at_ k + 5) by omega,
      steps_add _ (ih (by omega)), ← h.driven_next (by omega)]
    exact (h.waiting_after k).run_to_level (h.absent_after (by omega)) (h.noExpiry_after (by omega)) hlevel

end Cycle

end Sys2Proof.Safety
end

section
/-! PROOFS. The obligations of spec/43_emulation_engine.md: the EmulationEngine operations (R140 to R147), and the runs
of the phase loop (R148, R149, R150, R153). -/

namespace Sys2Proof.Proofs.EmulationEngine

open Sys2Proof Sys2Proof.Machine Sys2Proof.Safety

/-- Settles O53: the run through the five words of the phase loop. -/
theorem phaseTransitionIsOneInstant : Obligations.PhaseTransitionIsOneInstant := fun _ => run_transition

/-- Settles O54: the ticks before the expiry only count, the next one expires, and the restart is taken there. -/
theorem expiryTakesRestart : Obligations.ExpiryTakesRestart := by
  intro s n hs ha hw hr hb hn hexp habs
  obtain ⟨m, rfl⟩ := Nat.exists_eq_add_of_lt hn
  rw [Nat.zero_add] at hexp habs ⊢
  exact AtWaitsel.run_expiry ⟨hs, ha, hr, hb⟩ hw hexp habs

/-- Settles O56, by the state that the run to level `k` ends in; after phase 0 the timer has been rearmed. -/
theorem eightLevelsMakeOneCycle : Obligations.EightLevelsMakeOneCycle := by
  intro s at_ hs ha hp hr hb hnow habsent hrising hlevel hheld hgap hfirst k hk
  have h : CycleStart s at_ := ⟨⟨hs, ha, hr, hb⟩, hp, hnow, habsent, hrising, hlevel, hheld, hgap, hfirst⟩
  exact ⟨afterLevel s at_ k, h.run_to_level hk, rfl, ha, rfl, rfl, hr, rfl, rfl,
    fun hpos => ⟨if_neg (by omega), if_neg (by omega)⟩⟩

/-- Settles O57: with the timer stopped a wait moves nothing but the clock. -/
theorem idleWaitOnlyPassesTime : Obligations.IdleWaitOnlyPassesTime := by
  intro s n hs ha hw hr hb habs
  rw [← State.waited_of_stopped hw n]
  exact AtWaitsel.run_wait ⟨hs, ha, hr, hb⟩ habs fun hon => absurd (hw.symm.trans hon) (by decide)

/-- Settles O25. -/
theorem wdstopStopsTimer : Obligations.WdstopStopsTimer :=
  ⟨by decide, fun s hne => State.advance_eq_next (s := s.stopTimer) hne⟩

/-- Settles O26. -/
theorem phrstResetsPhase : Obligations.PhrstResetsPhase :=
  ⟨by decide, fun s hne => State.advance_eq_next (s := { s with phase := 0 }) hne⟩

/-- Settles O27: the two parities of PHASE name the awaited level, and SEL has only the other one besides. -/
theorem waitselTakesRestartOrLevel : Obligations.WaitselTakesRestartOrLevel := by
  refine ⟨by decide, fun s => ⟨fun hr => if_pos hr, fun hr heven hsel hne => ?_, fun hr hodd hsel hne => ?_,
    fun hr heven hsel => ?_, fun hr hodd hsel => ?_⟩⟩
  · exact exec_waitsel_level hr (hsel.trans (awaited_of_even heven).symm) hne
  · exact exec_waitsel_level hr ((Bool.eq_not_iff.mpr hsel).trans (awaited_of_odd hodd).symm) hne
  · exact exec_waitsel_tick hr (awaited_of_even heven ▸ hsel)
  · refine exec_waitsel_tick hr ?_
    rw [awaited_of_odd hodd, hsel]
    exact (Bool.not_ne_self _).symm

/-- Settles O28: the entry that PHASE numbers, by its eight values. -/
theorem driveCopiesEntry : Obligations.DriveCopiesEntry := by
  refine ⟨by decide, fun s hne => ?_⟩
  rw [← Schedule.entry_eq]
  exact State.advance_eq_next (s := { s with out := s.sched.entry s.phase }) hne

/-- Settles O29, case by case of PHASE. -/
theorem wdarmArmsAfterPhaseZero : Obligations.WdarmArmsAfterPhaseZero := by
  refine ⟨by decide, fun s hne => ⟨fun hp => ?_, fun hp => ?_⟩⟩
  · exact (congrArg State.advance (if_neg hp)).trans (State.advance_eq_next (s := s.startTimer) hne)
  · exact (congrArg State.advance (if_pos hp)).trans (State.advance_eq_next hne)

/-- Settles O30: the 3 bits of PHASE wrap as the sum modulo 8 does. -/
theorem phincAdvancesPhase : Obligations.PhincAdvancesPhase := by
  refine ⟨by decide, fun s hne => ⟨nextPhase s.phase, ?_, ?_⟩⟩
  · rw [nextPhase_eq_add_one]
    exact BitVec.toNat_add ..
  · exact State.advance_eq_next (s := { s with phase := nextPhase s.phase }) hne

end Sys2Proof.Proofs.EmulationEngine
end

section
/-! SUPPORT. The word placed where the next step fetches (spec/95_test_vectors.md section 3.2), who leads into the
power-on path (spec/44_sequencer_control.md R165), and the two paths to the phase loop as whole runs: from power-on to
0x03, and from 0x03, which is the restart's too, to 0x07 (R164, R166). -/

namespace Sys2Proof.Machine

open Sys2Proof

/-- `withFetchWord` with all sixteen bits of a word stores that word at SEQ. -/
theorem State.withFetchWord_toNat (s : State) (w : Word) : s.withFetchWord 16 w.toNat = s.storeWord s.seq w := by
  rw [State.withFetchWord, Nat.mod_eq_of_lt w.isLt, BitVec.ofNat_toNat, BitVec.setWidth_eq]

end Sys2Proof.Machine

namespace Sys2Proof.Safety

open Sys2Proof Sys2Proof.Machine

/-! ## Into the power-on path (R165) -/

/-- Where `b` lies on the power-on path, `a` with the link register at `link` is the one place it is entered from;
0x00 is not entered at all. -/
def BootEntry (a link b : Addr) : Prop :=
  b.toNat ≠ 0x00 ∧ (b.toNat = 0x01 → a.toNat = 0x1B ∧ link = 0x01) ∧ (b.toNat = 0x02 → a.toNat = 0x01)

/-- Outside the routine only LSEL leads to the power-on path, to the SEED after it. -/
theorem bootEntry_successors_outside {a link : Addr} {i : Instr} (ha : a.toNat ≤ 0x0B) (hi : listedAt a = some i) :
    ∀ next ∈ i.successors a link, BootEntry a link next.1 := by
  rcases seq_cases_outside ha with rfl | rfl | rfl | rfl | rfl | rfl | rfl | rfl | rfl | rfl | rfl | rfl <;>
    cases hi <;> simp [Instr.successors, BootEntry, Config.restartVec]

/-- In the routine only RET does, where the link is that of the power-on CALL. -/
theorem bootEntry_successors_in_routine {a link : Addr} {i : Instr} (ha : 0x10 ≤ a.toNat ∧ a.toNat ≤ 0x1B)
    (hlink : link = 0x01 ∨ link = 0x06) (hi : listedAt a = some i) :
    ∀ next ∈ i.successors a link, BootEntry a link next.1 := by
  rcases seq_cases_routine ha with (rfl | rfl | rfl) | rfl | rfl | rfl | rfl | rfl | rfl | rfl | rfl | rfl <;>
    cases hi <;> rcases hlink with rfl | rfl <;> simp [Instr.successors, BootEntry]

theorem RunInv.bootEntry_of_step {s t : State} (h : RunInv s) (ht : step s = .next t) :
    BootEntry s.seq s.lr t.seq := by
  obtain ⟨i, hlisted, hexec⟩ := exec_listed_of_step h.fixed_store ht
  have hnext := exec_successor hexec
  rcases h.seq_defined with hout | hin
  · exact bootEntry_successors_outside hout hlisted _ hnext
  · exact bootEntry_successors_in_routine hin (h.link hin) hlisted _ hnext

/-- Past the SEED is not on the power-on path. -/
theorem Seeded.not_on_boot_path {s : State} (h : Seeded s) :
    ¬ (s.seq.toNat ≤ 0x02 ∨ (InRoutine s ∧ s.lr = 0x01)) := by
  rintro (hlow | ⟨⟨hin, -⟩, hlink⟩)
  · rcases h with ⟨hpast, -⟩ | ⟨⟨hin, -⟩, -⟩ <;> omega
  · rcases h with ⟨-, hout⟩ | ⟨-, hlink'⟩
    · omega
    · exact absurd (hlink.symm.trans hlink') (by decide)

/-! ## The word that a read leaves in SNAP -/

/-- The bits of SNAP after a read (R100). -/
theorem readDone_snap_getLsbD (s : State) {k : Nat} (hk : k < 16) :
    (readDone s).snap.getLsbD (15 - k) = s.env.dataAt (s.now + fallOf s k) :=
  sampled_getLsbD s.shreg (dataAtFall s) hk (Nat.le_refl 16)

/-! ## From power-on to 0x03 (R164, R166) -/

/-- The state in which the first read starts: the CALL at 0x00 has been made. -/
def firstReadStart (s : State) : State := { s with lr := 0x01, seq := 0x10 }

/-- The layout that the first read chooses. -/
def bootLayout (s : State) : Layout := select s.par.btnPos (readDone (firstReadStart s)).snap

/-- The state at 0x02 after the first read and LSEL. -/
def bootLaidOut (s : State) : State :=
  { readDone (firstReadStart s) with layout := codeOfLayout (bootLayout s), seq := 0x02 }

/-- The state at 0x03 after SEED. -/
def bootSeeded (s : State) : State :=
  { bootLaidOut s with sched := build s.par.btnPos 0xFFFF (bootLayout s), seq := 0x03 }

theorem run_boot_path {s : State} (hs : s.csLoad = []) (ha : s.seq = 0x00) (hq : Quiet s) :
    steps (138 + fallOf s 16) s = .next (bootSeeded s) := by
  have hread : ReadStart (firstReadStart s) := ⟨hs, rfl, hq⟩
  calc steps (138 + fallOf s 16) s
    _ = steps (135 + fallOf s 16 + 2 + 1) s := congrArg (steps · s) (by omega)
    _ = steps (135 + fallOf s 16 + 2) (firstReadStart s) := steps_succ _ (step_at_boot_call hs ha)
    _ = steps 2 (readDone (firstReadStart s)) := steps_add 2 hread.run_to_return
    _ = steps 1 (bootLaidOut s) := steps_succ 1 (step_at_lsel hs rfl)
    _ = .next (bootSeeded s) :=
      (steps_one _).trans (step_at_seed (s := bootLaidOut s) hs rfl (layoutOfCode_eq_some.mpr rfl))

/-! ## From 0x03 to the phase loop (R164, R180) -/

/-- The state in which the read of the restart path starts: the timer is stopped, PHASE is reset and the CALL at 0x05
has been made. -/
def restartReadStart (s : State) : State :=
  { s with wdRun := false, restartReq := false, phase := 0, lr := 0x06, seq := 0x10 }

/-- The state at 0x07 after the read of the restart path and BUILD under the layout `lay`. -/
def restartBuilt (s : State) (lay : Layout) : State :=
  { readDone (restartReadStart s) with
    sched := build s.par.btnPos (readDone (restartReadStart s)).snap lay
    seq := 0x07 }

theorem run_restart_path {s : State} {lay : Layout} (hs : s.csLoad = []) (ha : s.seq = 0x03)
    (hb : s.dlyBusy = false) (hl : layoutOfCode s.layout = some lay) :
    steps (139 + fallOf s 16) s = .next (restartBuilt s lay) := by
  have hread : ReadStart (restartReadStart s) := ⟨hs, rfl, hb, rfl, rfl⟩
  calc steps (139 + fallOf s 16) s
    _ = steps (135 + fallOf s 16 + 1 + 3) s := congrArg (steps · s) (by omega)
    _ = steps (135 + fallOf s 16 + 1 + 2) { s with wdRun := false, restartReq := false, seq := 0x04 } :=
      steps_succ _ (step_at_wdstop hs ha)
    _ = steps (135 + fallOf s 16 + 1 + 1) { s with wdRun := false, restartReq := false, phase := 0, seq := 0x05 } :=
      steps_succ _ (step_at_phrst hs rfl)
    _ = steps (135 + fallOf s 16 + 1) (restartReadStart s) := steps_succ _ (step_at_cycle_call hs rfl)
    _ = steps 1 (readDone (restartReadStart s)) := steps_add 1 hread.run_to_return
    _ = .next (restartBuilt s lay) :=
      (steps_one _).trans (step_at_build (s := readDone (restartReadStart s)) hs rfl hl)

/-! ## The boot as one run (R166) -/

/-- The delays of the second read draw after the 33 of the first. -/
theorem fallOf_bootSeeded (s : State) (k : Nat) :
    fallOf (bootSeeded s) k = clkFallAt s.par.ticksPerUs (fun j => drawn s (33 + j)) k :=
  congrArg (clkFallAt s.par.ticksPerUs · k) (funext fun j => drawn_congr rfl (Nat.add_assoc s.drawIx 33 j))

/-- Both paths, one after the other. -/
theorem run_boot {s : State} (hs : s.csLoad = []) (ha : s.seq = 0x00) (hq : Quiet s) :
    steps (277 + (fallOf s 16 + fallOf (bootSeeded s) 16)) s =
      .next (restartBuilt (bootSeeded s) (bootLayout s)) := by
  rw [show 277 + (fallOf s 16 + fallOf (bootSeeded s) 16) =
    138 + fallOf s 16 + (139 + fallOf (bootSeeded s) 16) by omega, steps_add _ (run_boot_path hs ha hq)]
  exact run_restart_path (s := bootSeeded s) hs rfl hq.1 (layoutOfCode_eq_some.mpr rfl)

end Sys2Proof.Safety
end

section
/-! PROOFS. The obligations of spec/44_sequencer_control.md: the control transfers (R160 to R162), fetch and step
(R163), the fixed control store and what of it is reached (R164, R165), and the boot (R166). -/

namespace Sys2Proof.Proofs.SequencerControl

open Sys2Proof Sys2Proof.Machine Sys2Proof.Safety

/-- Settles O48: the run invariant keeps SEQ in the defined words and LR at one of the two links, and with that every
step enters the power-on path in its order and leaves it for good. -/
theorem sequencerStaysInDefinedWords : Obligations.SequencerStaysInDefinedWords := by
  intro t ht
  have hinv := runInv_of_reachable ht
  refine ⟨hinv.seq_defined, fun u hu => ?_⟩
  obtain ⟨hzero, hlsel, hseed⟩ := hinv.bootEntry_of_step hu
  refine ⟨hzero, hlsel, hseed, fun hseeded => ?_⟩
  have hnext : Seeded u := LaidOut.seeded_of_step (.inr hseeded) hinv.fixed_store hu
  exact ⟨hnext, hnext.not_on_boot_path⟩

/-- Settles O52: the run through the power-on path and the restart path, with the word of each of the two reads. -/
theorem bootReachesPhaseZero : Obligations.BootReachesPhaseZero := by
  intro p e d _ s fall₁ fall₂
  have hfirst : fallOf s = fall₁ := rfl
  have hsecond : fallOf (bootSeeded s) = fall₂ := funext (fallOf_bootSeeded s)
  have hnow : (bootSeeded s).now = fall₁ 16 := Nat.zero_add _
  have hrun := run_boot (s := s) rfl rfl ⟨rfl, rfl, rfl⟩
  rw [hfirst, hsecond] at hrun
  refine ⟨_, (readDone (firstReadStart s)).snap, hrun, fun k hk => ?_, fun k hk => ?_, rfl, rfl, ?_, rfl, rfl, rfl,
    rfl, rfl, rfl⟩
  · refine (readDone_snap_getLsbD (firstReadStart s) hk).trans (congrArg e.dataAt ?_)
    exact Nat.zero_add _
  · refine (readDone_snap_getLsbD (restartReadStart (bootSeeded s)) hk).trans (congrArg e.dataAt ?_)
    exact congrArg₂ (· + ·) hnow (congrFun hsecond k)
  · exact congrArg₂ (· + ·) hnow (congrFun hsecond 16)

/-- Settles O6. -/
theorem stepRunsDecodedInstruction : Obligations.StepRunsDecodedInstruction :=
  fun _ w _ hfetch hdecode => step_of_selects ⟨w, hfetch, hdecode⟩

/-- Settles O8: the words decode to the listing, and the list of the statement is that listing, address by address. -/
theorem fixedStoreIsTheListing : Obligations.FixedStoreIsTheListing := by
  intro s hs
  rw [State.fetch_of_csLoad_nil hs, romWord_map_decode]
  refine congrArg (Option.map Decoded.ok) ?_
  generalize s.seq = a
  revert a
  decide

/-- Settles O9: the word is stored at SEQ and nowhere else, and it decodes to its operation. -/
theorem placedWordRuns : Obligations.PlacedWordRuns := by
  intro s i hwf
  rw [State.withFetchWord_toNat]
  have hfetch := State.fetch_storeWord_self s (encode i)
  exact ⟨step_of_selects ⟨_, hfetch, decode_eq_ok_iff.mpr ⟨hwf, rfl⟩⟩, rfl,
    fun _ hne => Memory.read_write_other s.csLoad (encode i) hne⟩

/-- Settles O31: the next fetch is at the target. -/
theorem jmpSetsSeq : Obligations.JmpSetsSeq := by
  refine ⟨by decide, fun _ _ => rfl, fun a s t h hnone => ?_⟩
  obtain rfl : t = { s with seq := a } := exec_inv h
  exact step_of_fetch_none hnone

/-- Settles O32. -/
theorem callLinksAndJumps : Obligations.CallLinksAndJumps := ⟨by decide, fun _ _ => exec_call_eq_next⟩

/-- Settles O33. -/
theorem retReturnsToLink : Obligations.RetReturnsToLink := ⟨by decide, fun _ => rfl⟩

end Sys2Proof.Proofs.SequencerControl
end

section
/-! SUPPORT. What a tick does to the delay counter (spec/00_scope.md R7), beside `State.tick_timer_spec`. -/

namespace Sys2Proof.Machine

open Sys2Proof

variable (s : State)

@[simp] theorem State.countTimer_dlyBusy : s.countTimer.dlyBusy = s.dlyBusy := by
  rcases s.countTimer_spec with ⟨_, h⟩ | ⟨_, _, h⟩ | ⟨_, _, h⟩ <;> rw [h]

@[simp] theorem State.countTimer_dlyRem : s.countTimer.dlyRem = s.dlyRem := by
  rcases s.countTimer_spec with ⟨_, h⟩ | ⟨_, _, h⟩ | ⟨_, _, h⟩ <;> rw [h]

/-- What a tick does to a delay (R7). -/
theorem State.tick_delay_spec :
    (s.dlyBusy = true ∧ 0 < s.dlyRem ∧ s.tick.dlyRem = s.dlyRem - 1) ∨
    ((s.dlyBusy = false ∨ s.dlyRem = 0) ∧ s.tick.dlyRem = s.dlyRem) := by
  have hspec := State.countDelay_spec ({ s with now := s.now + 1 } : State).countTimer
  simp only [State.countTimer_dlyBusy, State.countTimer_dlyRem] at hspec
  rcases hspec with ⟨hb, hr, h⟩ | ⟨hidle, h⟩
  · exact .inl ⟨hb, hr, by simp [State.tick, h]⟩
  · exact .inr ⟨hidle, by simp [State.tick, h]⟩

end Sys2Proof.Machine
end

section
/-! PROOFS. The obligations of spec/60_exceptions.md: the tick of the watchdog (R176), the restart taken at WAITSEL
(R180, R181), and the path it takes back to the phase loop (R180). -/

namespace Sys2Proof.Proofs.Exceptions

open Sys2Proof Sys2Proof.Machine Sys2Proof.Safety

/-- Settles O45: by the run invariant the flag stands only at WAITSEL, whose first case is the restart. -/
theorem restartTakenAtOnce : Obligations.RestartTakenAtOnce := by
  intro t ht hreq
  have hinv := runInv_of_reachable ht
  obtain ⟨hwait, -⟩ := hinv.pending_at_wait hreq
  exact ⟨hwait, step_at_waitsel_restart hinv.fixed_store (BitVec.eq_of_toNat_eq hwait) hreq⟩

/-- Settles O55: the run of the restart path; its read starts in the instant of the restart and with the same draws, so
it samples at the falls counted from there. -/
theorem restartPathResamples : Obligations.RestartPathResamples := by
  intro s lay hs ha hb hl fall
  exact ⟨restartBuilt s lay, run_restart_path hs ha hb hl,
    fun _ hk => readDone_snap_getLsbD (restartReadStart s) hk, rfl⟩

/-- Settles O35: the frame of the tick, the WDT rule for the timer, the countdown for the delay. -/
theorem tickCountsTimerAndDelay : Obligations.TickCountsTimerAndDelay := by
  intro s
  have htimer := s.tick_timer_spec
  have hdelay := s.tick_delay_spec
  refine ⟨s.tick.wdCnt, s.tick.restartReq, s.tick.dlyRem, s.tick_frame, fun hoff => ?_, fun hon hexp => ?_,
    fun hon hne => ?_, fun hb hr => ?_, fun hidle => ?_⟩
  · simpa [hoff] using htimer
  · simpa [hon, hexp] using htimer
  · simpa [hon, hne] using htimer
  · simpa [hb, hr, hr.ne'] using hdelay
  · rcases hdelay with ⟨hb, hr, -⟩ | ⟨-, hkept⟩
    · rcases hidle with hoff | hzero
      · exact absurd (hb.symm.trans hoff) (by decide)
      · omega
    · exact hkept

end Sys2Proof.Proofs.Exceptions
end
